-- ==== Sys2Proof/Word.lean ====
section
/-! DEFINITION. The widths PSEG works in (00_scope.md R13, R14): a byte of IBUF, a 16-bit header field,
and the 32-bit word of every register, command word and data word. -/

namespace Sys2Proof

/-- One IBUF cell's content. -/
abbrev Byte := BitVec 8

/-- A 16-bit header field. -/
abbrev Half := BitVec 16

/-- A register, a command word or a bus data word. -/
abbrev Word := BitVec 32

end Sys2Proof
end

