-- ==== Sys2Proof/Config.lean ====
section
/-! DEFINITION. The parameters of one PSEG (00_scope.md R8 to R12, 20_memory.md R80). The spec calls each
of them OPEN, "a model takes it as an argument": they are fields of the state of the machine
that no step changes, so a statement about every state holds for every value of them. -/

namespace Sys2Proof

/-- What one PSEG was built with. -/
structure Params where
  /-- `BUF_BYTES` less its least value 64, so that 64 ≤ BUF_BYTES ≤ 65536 (R8) holds by the type. -/
  bufExtra : Fin 65473
  /-- `HAS_ROUTER` (R9). -/
  hasRouter : Bool
  /-- `ROUTE_LEN_FROM_IP` (R10). -/
  routeLenFromIp : Bool
  /-- `PSEG_BASE[i]`, where the platform puts the aperture (20_memory.md R80). -/
  base : Nat
deriving DecidableEq, Repr

/-- `BUF_BYTES`, the capacity of IBUF in bytes (R8). -/
def Params.bufBytes (c : Params) : Nat := c.bufExtra.val + 64

/-- The parameters `State.reset` is built with. HAS_ROUTER = 1 and ROUTE_LEN_FROM_IP = 1 are the spec's
defaults (R9, R10); BUF_BYTES = 256 is the value 95_test_vectors.md assumes, and the base 0 is
nobody's: DESIGN CHOICE, log entry 4. -/
def Params.default : Params :=
  { bufExtra := ⟨192, by decide⟩, hasRouter := true, routeLenFromIp := true, base := 0 }

end Sys2Proof
end

