-- ==== Sys2Proof/Syntax.lean ====
section
/-! DEFINITION. The registers by name, the commands by name, and the instructions: one constructor for each row
of spec/opcode_table.json. -/

namespace Sys2Proof

/-- The mapped registers of the CSR region (10_state.md R32). -/
inductive Csr where
  | caps | cmd | status | bufsize | ctrl | len
  | srcPort | dstPort | seq | ack | doff | rsvd | flags | window | checksum | urgent
  | udpLen | segOff | segLen | optOff | optLen | payOff | payLen
deriving DecidableEq, Repr

/-- What a command word asks for (30_encoding.md R103). -/
inductive Command where
  | nop | decodeTcp | decodeUdp | routeTcp | routeUdp | clear | illegal
deriving DecidableEq, Repr

/-- The instructions. The six commands are CMD writes of a word that names them (30_encoding.md R103); NOP and
CLEAR carry the ignored PROTO bit of their word. The other four are the host's bus
accesses (R106). A CMD write of an ILLEGAL word is `csrWr32 .cmd w`: the table has no row for it. -/
inductive Instr where
  | nop (proto : BitVec 1)
  | decodeTcp
  | decodeUdp
  | routeTcp
  | routeUdp
  | clear (proto : BitVec 1)
  | csrRd32 (r : Csr)
  | csrWr32 (r : Csr) (wdata : Word)
  | ibufRd8 (off : BitVec 16)
  | ibufWr8 (off : BitVec 16) (b : Byte)
deriving DecidableEq, Repr

end Sys2Proof
end

