-- ==== Sys2Proof/WellFormed.lean ====
section
/-! DEFINITION. Which instructions are some bus request (30_encoding.md R103, R106) of a PSEG with given
parameters, each named once: the router's commands need the router, an IBUF offset lies below
BUF_BYTES, and a CMD write of a word that names a command is that command and not a `csrWr32`. -/

namespace Sys2Proof

/-- "exactly six word patterns name an operation" (30_encoding.md R103): the list, as the rule writes it, with the two
ROUTE words only where the router is built in. -/
def commandWords (c : Params) : List Word :=
  [0x00000000, 0x00000100, 0x00000001, 0x00000101, 0x00000003, 0x00000103]
    ++ (if c.hasRouter then [0x00000002, 0x00000102] else [])

/-- An instruction that some request of a PSEG with parameters `c` stands for. -/
def Instr.WellFormed (c : Params) : Instr → Bool
  | .nop _ => true
  | .decodeTcp => true
  | .decodeUdp => true
  | .routeTcp => c.hasRouter
  | .routeUdp => c.hasRouter
  | .clear _ => true
  | .csrRd32 _ => true
  | .csrWr32 r w => !(r == .cmd && (commandWords c).contains w)
  | .ibufRd8 off => decide (off.toNat < c.bufBytes)
  | .ibufWr8 off _ => decide (off.toNat < c.bufBytes)

end Sys2Proof
end

