-- ==== Sys2Proof/Decode.lean ====
section
/-! DEFINITION. The command decoder (30_encoding.md R103), the bus request decoder (R105, R106), the instruction a request
and its data word stand for, the encoder, and the reading of an opcode table word. -/

namespace Sys2Proof

/-! ### The CSR map -/

/-- The byte offset of a register (10_state.md R32). -/
def csrOffset : Csr → BitVec 16
  | .caps => 0x00
  | .cmd => 0x04
  | .status => 0x08
  | .bufsize => 0x0C
  | .ctrl => 0x10
  | .len => 0x14
  | .srcPort => 0x20
  | .dstPort => 0x24
  | .seq => 0x28
  | .ack => 0x2C
  | .doff => 0x30
  | .rsvd => 0x34
  | .flags => 0x38
  | .window => 0x3C
  | .checksum => 0x40
  | .urgent => 0x44
  | .udpLen => 0x48
  | .segOff => 0x4C
  | .segLen => 0x50
  | .optOff => 0x54
  | .optLen => 0x58
  | .payOff => 0x5C
  | .payLen => 0x60

/-- Every mapped register, in the order of the map. -/
def allCsrs : List Csr :=
  [.caps, .cmd, .status, .bufsize, .ctrl, .len,
   .srcPort, .dstPort, .seq, .ack, .doff, .rsvd, .flags, .window, .checksum, .urgent,
   .udpLen, .segOff, .segLen, .optOff, .optLen, .payOff, .payLen]

/-- The register at an offset; none where the map has none (10_state.md R32: "Every other offset in the CSR region is
unmapped"). -/
def csrAt (off : BitVec 16) : Option Csr := allCsrs.find? (fun r => csrOffset r == off)

/-! ### The command word -/

/-- `decodeCmd` of 30_encoding.md R103. -/
def decodeCmd (c : Params) (w : Word) : Command :=
  if w.extractLsb' 9 23 ≠ 0 ∨ w.extractLsb' 4 4 ≠ 0 then .illegal
  else if w.extractLsb' 0 4 = 0x0 then .nop
  else if w.extractLsb' 0 4 = 0x1 then
    if w.extractLsb' 8 1 = 0 then .decodeTcp else .decodeUdp
  else if w.extractLsb' 0 4 = 0x2 then
    if c.hasRouter = false then .illegal
    else if w.extractLsb' 8 1 = 0 then .routeTcp else .routeUdp
  else if w.extractLsb' 0 4 = 0x3 then .clear
  else .illegal

/-- The command word with a given OP and PROTO and every reserved bit 0 (30_encoding.md R100). -/
def commandWord (op : BitVec 4) (proto : BitVec 1) : Word := 0#23 ++ proto ++ 0#4 ++ op

/-- The instruction that a CMD write of `w` is: the command the word names, and the register write itself where
the word is ILLEGAL. -/
def cmdInstr (c : Params) (w : Word) : Instr :=
  match decodeCmd c w with
  | .nop => .nop (w.extractLsb' 8 1)
  | .decodeTcp => .decodeTcp
  | .decodeUdp => .decodeUdp
  | .routeTcp => .routeTcp
  | .routeUdp => .routeUdp
  | .clear => .clear (w.extractLsb' 8 1)
  | .illegal => .csrWr32 .cmd w

/-! ### The bus request -/

/-- What a request word asks for (30_encoding.md R106). -/
inductive BusOp where
  | csrRd32 (r : Csr)
  | csrWr32 (r : Csr)
  | ibufRd8 (off : BitVec 16)
  | ibufWr8 (off : BitVec 16)
  | busError (addr : BitVec 17)
deriving DecidableEq, Repr

/-- Why a request is no instruction. -/
inductive Reject where
  /-- `BUS_ERROR(addr)` of 30_encoding.md R106. -/
  | busError (addr : BitVec 17)
deriving DecidableEq, Repr

/-- The register that a 32-bit request at `addr` names: `addr[16] = 0`, `addr[1:0] = 0b00`, the offset mapped. -/
def csrOfAddr (addr : BitVec 17) : Option Csr :=
  if addr.extractLsb' 16 1 = 0 ∧ addr.extractLsb' 0 2 = 0 then csrAt (addr.extractLsb' 0 16) else none

/-- `decodeBus` of 30_encoding.md R106, total on the 20-bit request. -/
def decodeBus (c : Params) (q : BitVec 20) : BusOp :=
  let we := q.extractLsb' 19 1
  let size := q.extractLsb' 17 2
  let addr := q.extractLsb' 0 17
  if size = 0b10 then
    match csrOfAddr addr with
    | some r => if we = 0 then .csrRd32 r else .csrWr32 r
    | none => .busError addr
  else if size = 0b00 ∧ addr.extractLsb' 16 1 = 1 ∧ (addr.extractLsb' 0 16).toNat < c.bufBytes then
    if we = 0 then .ibufRd8 (addr.extractLsb' 0 16) else .ibufWr8 (addr.extractLsb' 0 16)
  else .busError addr

/-- The instruction a host access is: its 20-bit request and its 32-bit data word (30_encoding.md R105). A read ignores
the data word, an 8-bit write uses its bits 7:0. -/
def decode (c : Params) (q : BitVec 20) (wdata : Word) : Except Reject Instr :=
  match decodeBus c q with
  | .csrRd32 r => .ok (.csrRd32 r)
  | .csrWr32 r => .ok (if r = .cmd then cmdInstr c wdata else .csrWr32 r wdata)
  | .ibufRd8 off => .ok (.ibufRd8 off)
  | .ibufWr8 off => .ok (.ibufWr8 off (wdata.extractLsb' 0 8))
  | .busError addr => .error (.busError addr)

/-! ### The encoder -/

/-- The request word WE : SIZE : ADDR (30_encoding.md R105). -/
def requestWord (we : BitVec 1) (size : BitVec 2) (addr : BitVec 17) : BitVec 20 := we ++ size ++ addr

/-- The request of a 32-bit register access: SIZE = 0b10, ADDR = the offset (20_memory.md R80). -/
def csrRequest (we : BitVec 1) (r : Csr) : BitVec 20 := requestWord we 0b10 (0#1 ++ csrOffset r)

/-- The request of an 8-bit IBUF access: SIZE = 0b00, ADDR = 0x10000 + off. -/
def ibufRequest (we : BitVec 1) (off : BitVec 16) : BitVec 20 := requestWord we 0b00 (1#1 ++ off)

/-- The request word and the data word of an instruction; a read's data word, which is ignored, is 0. -/
def encode : Instr → BitVec 20 × Word
  | .nop proto => (csrRequest 1 .cmd, commandWord 0x0 proto)
  | .decodeTcp => (csrRequest 1 .cmd, commandWord 0x1 0)
  | .decodeUdp => (csrRequest 1 .cmd, commandWord 0x1 1)
  | .routeTcp => (csrRequest 1 .cmd, commandWord 0x2 0)
  | .routeUdp => (csrRequest 1 .cmd, commandWord 0x2 1)
  | .clear proto => (csrRequest 1 .cmd, commandWord 0x3 proto)
  | .csrRd32 r => (csrRequest 0 r, 0)
  | .csrWr32 r w => (csrRequest 1 r, w)
  | .ibufRd8 off => (ibufRequest 0 off, 0)
  | .ibufWr8 off b => (ibufRequest 1 off, 0#24 ++ b)

/-! ### The opcode table's words -/

/-- The host access that a word of spec/opcode_table.json is. A CMD32 row's 32 bits are the data word of a write to
CMD (request 0xC0004). A BUSREQ20 row's 20 bits are the request, its data word, to which the
table gives no bits, being 0; in whole bytes the 20 bits are 24, whose top four are no bits of the request and
must be 0 (log entry 5). -/
def tableAccess (nbits w : Nat) : Option (BitVec 20 × Word) :=
  if nbits = 32 then
    if w < 2 ^ 32 then some (0xC0004#20, BitVec.ofNat 32 w) else none
  else if nbits = 24 ∨ nbits = 20 then
    if w < 2 ^ 20 then some (BitVec.ofNat 20 w, 0) else none
  else none

/-- The instruction that a table word is in a PSEG with the parameters of `State.reset`. -/
def decodeTableWord (nbits w : Nat) : Option Instr :=
  match tableAccess nbits w with
  | none => none
  | some (q, wdata) =>
    match decode Params.default q wdata with
    | .ok i => some i
    | .error _ => none

/-! ### One word of each row, written out from the table's encoding -/

theorem decode_nop_word : decodeTableWord 32 0b00000000000000000000000000000000 = some (.nop 0) := by decide
theorem decode_nop_word_proto : decodeTableWord 32 0b00000000000000000000000100000000 = some (.nop 1) := by decide
theorem decode_decodeTcp_word : decodeTableWord 32 0b00000000000000000000000000000001 = some .decodeTcp := by decide
theorem decode_decodeUdp_word : decodeTableWord 32 0b00000000000000000000000100000001 = some .decodeUdp := by decide
theorem decode_routeTcp_word : decodeTableWord 32 0b00000000000000000000000000000010 = some .routeTcp := by decide
theorem decode_routeUdp_word : decodeTableWord 32 0b00000000000000000000000100000010 = some .routeUdp := by decide
theorem decode_clear_word : decodeTableWord 32 0b00000000000000000000000000000011 = some (.clear 0) := by decide
theorem decode_csrRd32_word : decodeTableWord 24 0b01000000000000001000 = some (.csrRd32 .status) := by decide
theorem decode_csrWr32_word : decodeTableWord 24 0b11000000000000010000 = some (.csrWr32 .ctrl 0) := by decide
theorem decode_ibufRd8_word : decodeTableWord 24 0b00010000000000000101 = some (.ibufRd8 5) := by decide
theorem decode_ibufWr8_word : decodeTableWord 24 0b10010000000011111111 = some (.ibufWr8 255 0) := by decide

end Sys2Proof
end

