-- ==== Sys2Proof/Machine/State.lean ====
section
/-! DEFINITION. The state of the machine: the N_INST instances of PSEG (10_state.md), the schedule of what the host,
the engines and the reset input do next, and what the host's reads have returned. -/

namespace Sys2Proof.Machine

/-- The model faults (60_exceptions.md R270). They are the causes of the FAULT mark that a step sets, and the
fault that the machine stops with when a state that holds a mark is stepped. All are safe: a run
the chip would go on with is given no further state. -/
inductive Fault where
  /-- Raised by the engine's `Byte` (00_scope.md R15) and by IBUF_RD8 (44_control_and_bus.md R240) at a cell that is
  `none`. Safe: the chip reads some unspecified byte. -/
  | uninitialisedRead (off : Nat)
  /-- Raised by IBUF_WR8 while BUSY = 1 (44_control_and_bus.md R241, 70_reset_and_hazards.md R300). Safe: what the chip
  reports is not defined. -/
  | bufferWriteWhileBusy (off : Nat)
  /-- Raised by a request that is no access (44_control_and_bus.md R242). Safe: the host's reaction to the error response
  is outside PSEG. -/
  | busError (addr : BitVec 17)
deriving DecidableEq, Repr

/-- Why the machine has no meaning for a turn. -/
inductive Refusal where
  /-- Raised by no arm of `exec`: every instruction has its meaning. Safe. -/
  | notModelled (mnemonic : String)
  /-- Raised by a turn of the schedule that names an instance the machine does not have (log entry 10). Safe: such an
  access reaches no PSEG. -/
  | noSuchInst (k : Nat)
deriving DecidableEq, Repr

/-- The values of STATUS.CODE, "exactly these" (60_exceptions.md R260). -/
inductive StatusCode where
  | ok
  | truncated
  | invalidHeaderLength
  | reservedBitsSet
  | invalidLength
  | lengthMismatch
  | illegalCommand
  | lenOutOfRange
  | routeFrameTruncated
  | routeNotIpv4
  | routeBadIpHeader
  | routeProtocolMismatch
  | routeFragment
deriving DecidableEq, Repr

/-- The fields of STATUS (10_state.md R36). The host cannot write it and its reserved bits read 0, so it
is held by field; `Status.word` is the 32-bit view. -/
structure Status where
  busy : Bool
  done : Bool
  err : Bool
  valid : Bool
  overrun : Bool
  code : StatusCode
  lastOp : BitVec 4
  lastProto : BitVec 1
deriving DecidableEq, Repr

/-- STATUS = 0x00000000: after reset (10_state.md R54) and after CLEAR (44_control_and_bus.md R235). -/
def Status.zero : Status :=
  { busy := false, done := false, err := false, valid := false, overrun := false,
    code := .ok, lastOp := 0, lastProto := 0 }

/-- The record registers (10_state.md R38 to R48), each at its field's width. -/
structure Record where
  srcPort : BitVec 16
  dstPort : BitVec 16
  seq : BitVec 32
  ack : BitVec 32
  doff : BitVec 4
  rsvd : BitVec 3
  flags : BitVec 9
  window : BitVec 16
  checksum : BitVec 16
  urgent : BitVec 16
  udpLen : BitVec 16
  segOff : BitVec 17
  segLen : BitVec 17
  optOff : BitVec 17
  optLen : BitVec 17
  payOff : BitVec 17
  payLen : BitVec 17
deriving DecidableEq, Repr

/-- Every record register 0. -/
def Record.zero : Record :=
  { srcPort := 0, dstPort := 0, seq := 0, ack := 0, doff := 0, rsvd := 0, flags := 0, window := 0,
    checksum := 0, urgent := 0, udpLen := 0, segOff := 0, segLen := 0, optOff := 0, optLen := 0,
    payOff := 0, payLen := 0 }

/-- The canonical form of an IBUF: the written cells, offsets strictly rising. An unlisted cell is `none`
(10_state.md R50), so no listed cell equals it. -/
abbrev Memory.wf (m : List Host.Cell) : Prop := m.Pairwise (fun a b => a.1 < b.1)

/-- Every written cell lies below `n`. -/
abbrev Memory.within (n : Nat) (m : List Host.Cell) : Prop := ∀ c ∈ m, c.1 < n

/-- One instance of PSEG: everything 10_state.md R54 lists. CMD has no storage, CAPS and BUFSIZE are read
from the parameters, irq is computed, and an operation is in flight exactly while
`status.busy` (R52(b)). -/
structure Pseg where
  params : Params
  status : Status
  /-- CTRL.IRQ_EN, the one field of CTRL (R37). -/
  irqEn : Bool
  /-- LEN (R39). -/
  len : Word
  record : Record
  /-- IBUF (R50). -/
  ibuf : List Host.Cell
  /-- LAT_OP, LAT_PROTO and LAT_LEN (R52(a)). -/
  latOp : BitVec 4
  latProto : BitVec 1
  latLen : Word
  /-- The model-only FAULT mark (R52(c)) with what set it; `none` is clear. -/
  fault : Option Fault
deriving DecidableEq, Repr

/-- An instance after reset (10_state.md R54, 70_reset_and_hazards.md R290); the parameters are constants. -/
def Pseg.reset (c : Params) : Pseg :=
  { params := c, status := .zero, irqEn := false, len := 0, record := .zero, ibuf := [],
    latOp := 0, latProto := 0, latLen := 0, fault := none }

/-- One turn of the interleaving (20_memory.md R90): a host access to one instance (30_encoding.md R105), an engine step
of one instance (60_exceptions.md R264), or the reset input, which reaches every instance (R274). -/
inductive Turn where
  | access (inst : Nat) (req : BitVec 20) (wdata : Word)
  | engine (inst : Nat)
  | reset
deriving DecidableEq, Repr

/-- The machine. `before ++ cur :: after` are its instances, in the order of their numbers; `cur` is the one the
present turn addresses. `turns` is what comes next (log entry 1), `observed` what the host's
reads have returned, oldest first (60_exceptions.md R276). -/
structure State where
  before : List Pseg
  cur : Pseg
  after : List Pseg
  turns : List Turn
  observed : List Word
deriving DecidableEq, Repr

/-- A machine right after reset whose instances were built with `c :: cs` and whose host has issued nothing. -/
def State.resetOf (c : Params) (cs : List Params) : State :=
  { before := [], cur := .reset c, after := cs.map Pseg.reset, turns := [], observed := [] }

/-- The machine right after reset: one instance, with the parameters of `Params.default` (log entry 4). -/
def State.reset : State := State.resetOf .default []

end Sys2Proof.Machine
end

