-- ==== Sys2Proof/Machine/Flags.lean ====
section
/-! DEFINITION. The status codes' numbers, the STATUS word, the irq output, and every way STATUS changes
(10_state.md R36, R49: "No operation writes a flag as a side effect beyond these"). -/

namespace Sys2Proof.Machine

/-- The number of a status code (60_exceptions.md R260). -/
def codeValue : StatusCode → BitVec 8
  | .ok => 0x00
  | .truncated => 0x01
  | .invalidHeaderLength => 0x02
  | .reservedBitsSet => 0x03
  | .invalidLength => 0x04
  | .lengthMismatch => 0x05
  | .illegalCommand => 0x10
  | .lenOutOfRange => 0x11
  | .routeFrameTruncated => 0x20
  | .routeNotIpv4 => 0x21
  | .routeBadIpHeader => 0x22
  | .routeProtocolMismatch => 0x23
  | .routeFragment => 0x24

/-- STATUS as the host reads it (10_state.md R36), bit 31 first. -/
def statusWord (t : Status) : Word :=
  0#11 ++ t.lastProto ++ t.lastOp ++ codeValue t.code ++ 0#3 ++ BitVec.ofBool t.overrun
    ++ BitVec.ofBool t.valid ++ BitVec.ofBool t.err ++ BitVec.ofBool t.done ++ BitVec.ofBool t.busy

/-- STATUS after the accept of a DECODE or ROUTE word with these fields (44_control_and_bus.md R231): OVERRUN is kept. -/
def Status.accepted (t : Status) (op : BitVec 4) (proto : BitVec 1) : Status :=
  { t with busy := true, done := false, err := false, valid := false, code := .ok, lastOp := op, lastProto := proto }

/-- STATUS after an illegal command word (44_control_and_bus.md R233): LAST_PROTO, OVERRUN and BUSY are kept. -/
def Status.illegalWord (t : Status) (op : BitVec 4) : Status :=
  { t with done := true, err := true, valid := false, code := .illegalCommand, lastOp := op }

/-- STATUS after a dropped command (44_control_and_bus.md R236). -/
def Status.dropped (t : Status) : Status := { t with overrun := true }

/-- STATUS after `finish(code)` (60_exceptions.md R264). -/
def Status.failed (t : Status) (c : StatusCode) : Status :=
  { t with busy := false, done := true, err := true, valid := false, code := c }

/-- STATUS after `commit(rec)` (60_exceptions.md R264). -/
def Status.committed (t : Status) : Status :=
  { t with busy := false, done := true, err := false, valid := true, code := .ok }

/-- The interrupt output (60_exceptions.md R268). -/
def irq (p : Pseg) : Bool := p.status.done && p.irqEn

end Sys2Proof.Machine
end

