-- ==== Sys2Proof/Machine/Operands.lean ====
section
/-! DEFINITION. What a register reads as (10_state.md R33 to R48), the cells of IBUF, and the engine's reads of
header fields (00_scope.md R15). -/

namespace Sys2Proof.Machine

/-! ### Registers -/

/-- CAPS (10_state.md R33): bit 0 HAS_ROUTER, bit 1 ROUTE_LEN_FROM_IP, which reads 0 without the router. -/
def capsWord (c : Params) : Word :=
  0#30 ++ BitVec.ofBool (c.hasRouter && c.routeLenFromIp) ++ BitVec.ofBool c.hasRouter

/-- The 32-bit value a read of a register returns (44_control_and_bus.md R243); CMD reads 0 (10_state.md R34). -/
def csrValue (p : Pseg) : Csr → Word
  | .caps => capsWord p.params
  | .cmd => 0
  | .status => statusWord p.status
  | .bufsize => BitVec.ofNat 32 p.params.bufBytes
  | .ctrl => (BitVec.ofBool p.irqEn).setWidth 32
  | .len => p.len
  | .srcPort => p.record.srcPort.setWidth 32
  | .dstPort => p.record.dstPort.setWidth 32
  | .seq => p.record.seq
  | .ack => p.record.ack
  | .doff => p.record.doff.setWidth 32
  | .rsvd => p.record.rsvd.setWidth 32
  | .flags => p.record.flags.setWidth 32
  | .window => p.record.window.setWidth 32
  | .checksum => p.record.checksum.setWidth 32
  | .urgent => p.record.urgent.setWidth 32
  | .udpLen => p.record.udpLen.setWidth 32
  | .segOff => p.record.segOff.setWidth 32
  | .segLen => p.record.segLen.setWidth 32
  | .optOff => p.record.optOff.setWidth 32
  | .optLen => p.record.optLen.setWidth 32
  | .payOff => p.record.payOff.setWidth 32
  | .payLen => p.record.payLen.setWidth 32

/-! ### The cells of IBUF -/

/-- The byte in a cell, or `none` where nothing has been written since reset (10_state.md R50). -/
def Memory.read : List Host.Cell → Nat → Option Byte
  | [], _ => none
  | (k, v) :: m, a => if k = a then some v else Memory.read m a

/-- The cells after a byte is stored, in the canonical form. -/
def Memory.write : List Host.Cell → Nat → Byte → List Host.Cell
  | [], a, b => [(a, b)]
  | (k, v) :: m, a, b =>
    if a < k then (a, b) :: (k, v) :: m
    else if a = k then (a, b) :: m
    else (k, v) :: Memory.write m a b

/-! ### The engine's reads -/

/-- How a body ends without a record: `finish(code)`, or the model fault of `Byte` (00_scope.md R15). -/
inductive Stop where
  | finish (c : StatusCode)
  | raise (f : Fault)
deriving DecidableEq, Repr

/-- `Byte(a)` (00_scope.md R15). -/
def byteAt (p : Pseg) (a : Nat) : Except Stop Byte :=
  if p.params.bufBytes ≤ a then .error (.raise (.uninitialisedRead a))
  else match Memory.read p.ibuf a with
    | some b => .ok b
    | none => .error (.raise (.uninitialisedRead a))

/-- `BE16(a)`: the byte at the lower offset is the more significant (20_memory.md R70). -/
def be16 (p : Pseg) (a : Nat) : Except Stop Half := do
  let b0 ← byteAt p a
  let b1 ← byteAt p (a + 1)
  .ok (b0 ++ b1)

/-- `BE32(a)` (20_memory.md R70). -/
def be32 (p : Pseg) (a : Nat) : Except Stop Word := do
  let b0 ← byteAt p a
  let b1 ← byteAt p (a + 1)
  let b2 ← byteAt p (a + 2)
  let b3 ← byteAt p (a + 3)
  .ok (b0 ++ b1 ++ b2 ++ b3)

end Sys2Proof.Machine
end

