-- ==== Sys2Proof/Machine/Ops.lean ====
section
/-! DEFINITION. The shared operations: raising a model fault (PSEG's only exception entry) and the reset that leaves it,
the four things a CMD write can do, the two ways a completion ends, the register and buffer writes, and
the choice of the instance a turn addresses. -/

namespace Sys2Proof.Machine

/-! ### Model faults and reset -/

/-- `raise f`: the FAULT mark is set and nothing else changes (60_exceptions.md R270, 10_state.md R52(c); log entries 6
and 8). -/
def raiseFault (f : Fault) (p : Pseg) : Pseg := { p with fault := some f }

/-- The reset input at one instance (70_reset_and_hazards.md R290, R291): the constants stay, everything else takes the
value of 10_state.md R54. It is the only way out of a fault. -/
def resetPseg (p : Pseg) : Pseg := Pseg.reset p.params

/-! ### Commands -/

/-- `accept(w)` (44_control_and_bus.md R231). -/
def acceptCmd (w : Word) (p : Pseg) : Pseg :=
  { p with
    latOp := w.extractLsb' 0 4
    latProto := w.extractLsb' 8 1
    latLen := p.len
    status := p.status.accepted (w.extractLsb' 0 4) (w.extractLsb' 8 1)
    record := .zero }

/-- `illegal(w)` (44_control_and_bus.md R233). -/
def illegalCmd (w : Word) (p : Pseg) : Pseg :=
  { p with status := p.status.illegalWord (w.extractLsb' 0 4), record := .zero }

/-- `clear()` (44_control_and_bus.md R235). -/
def clearCmd (p : Pseg) : Pseg := { p with status := .zero, record := .zero }

/-- `drop(k)` (44_control_and_bus.md R236). -/
def dropCmd (p : Pseg) : Pseg := { p with status := p.status.dropped }

/-- The effect of command `k`, written as the word `w` (the body of 44_control_and_bus.md R230). -/
def issueCmd (k : Command) (w : Word) (p : Pseg) : Pseg :=
  if k = .nop then p
  else if p.status.busy then dropCmd p
  else match k with
    | .nop => p
    | .decodeTcp => acceptCmd w p
    | .decodeUdp => acceptCmd w p
    | .routeTcp => acceptCmd w p
    | .routeUdp => acceptCmd w p
    | .clear => clearCmd p
    | .illegal => illegalCmd w p

/-- A host 32-bit write of `w` to CMD (44_control_and_bus.md R230). -/
def writeCmd (w : Word) (p : Pseg) : Pseg := issueCmd (decodeCmd p.params w) w p

/-! ### Completion -/

/-- `finish(code)` (60_exceptions.md R264): the record registers "stay 0, because accept cleared them". -/
def finishOp (c : StatusCode) (p : Pseg) : Pseg := { p with status := p.status.failed c }

/-- `commit(rec)` (60_exceptions.md R264, R265). -/
def commitOp (r : Record) (p : Pseg) : Pseg := { p with status := p.status.committed, record := r }

/-- What a completion writes, by how its body ended (60_exceptions.md R264, R270). -/
def settle (v : Except Stop Record) (p : Pseg) : Pseg :=
  match v with
  | .ok r => commitOp r p
  | .error (.finish c) => finishOp c p
  | .error (.raise f) => raiseFault f p

/-- Every body's first check (60_exceptions.md R261). -/
def ifInBuffer (p : Pseg) (body : Except Stop Record) : Except Stop Record :=
  if p.params.bufBytes < p.latLen.toNat then .error (.finish .lenOutOfRange) else body

/-! ### Register and buffer writes -/

/-- A 32-bit register write (44_control_and_bus.md R244): CMD, CTRL's bit 0, LEN; a read-only register ignores it. -/
def writeCsr (r : Csr) (w : Word) (p : Pseg) : Pseg :=
  match r with
  | .cmd => writeCmd w p
  | .ctrl => { p with irqEn := w.getLsbD 0 }
  | .len => { p with len := w }
  | .caps | .status | .bufsize => p
  | .srcPort | .dstPort | .seq | .ack | .doff | .rsvd | .flags | .window | .checksum | .urgent => p
  | .udpLen | .segOff | .segLen | .optOff | .optLen | .payOff | .payLen => p

/-- A byte stored in IBUF (44_control_and_bus.md R241). -/
def storeByte (a : Nat) (b : Byte) (p : Pseg) : Pseg := { p with ibuf := Memory.write p.ibuf a b }

/-! ### The machine around one instance -/

/-- A change of the addressed instance. -/
def onCur (f : Pseg → Pseg) (s : State) : State := { s with cur := f s.cur }

/-- A host read returns `v`: it joins the observation (60_exceptions.md R276) and changes nothing else (20_memory.md R77). -/
def returnData (v : Word) (s : State) : State := { s with observed := s.observed ++ [v] }

/-- The instances, in the order of their numbers. -/
def instances (s : State) : List Pseg := s.before ++ s.cur :: s.after

/-- The machine with instance `k` the addressed one; none where there is no such instance. -/
def select (k : Nat) (s : State) : Option State :=
  match (instances s).drop k with
  | [] => none
  | p :: rest => some { s with before := (instances s).take k, cur := p, after := rest }

/-- The first FAULT mark of the run. -/
def anyFault (s : State) : Option Fault := (instances s).findSome? (fun p => p.fault)

/-- The reset input: every instance at once (60_exceptions.md R274, 70_reset_and_hazards.md R290). -/
def resetAll (s : State) : State :=
  { s with before := s.before.map resetPseg, cur := resetPseg s.cur, after := s.after.map resetPseg }

/-- The instance and the 17-bit aperture address that a platform address reaches (20_memory.md R80, 60_exceptions.md R274): an
instance whose aperture of 2^17 bytes at PSEG_BASE[i] holds it. Where two apertures hold it, which the spec neither
forbids nor settles, the lowest-numbered instance has it: DESIGN CHOICE, log entry 18. -/
def apertureOf (s : State) (phys : Nat) : Option (Nat × BitVec 17) :=
  let hit (p : Pseg) : Bool := p.params.base ≤ phys && phys < p.params.base + 2 ^ 17
  match (instances s).findIdx? hit, (instances s).find? hit with
  | some k, some p => some (k, BitVec.ofNat 17 (phys - p.params.base))
  | _, _ => none

end Sys2Proof.Machine
end

