-- ==== Sys2Proof/Machine/Bus.lean ====
section
/-! DEFINITION. The four host bus operations (44_control_and_bus.md R240 to R244). -/

namespace Sys2Proof.Machine

/-- CSR_RD32 (44_control_and_bus.md R243). -/
def execCsrRd32 (r : Csr) (s : State) : Host.Outcome State Fault Refusal :=
  .next (returnData (csrValue s.cur r) s)

/-- CSR_WR32 (44_control_and_bus.md R244). -/
def execCsrWr32 (r : Csr) (wdata : Word) (s : State) : Host.Outcome State Fault Refusal :=
  .next (onCur (writeCsr r wdata) s)

/-- IBUF_RD8 (44_control_and_bus.md R240). An offset at or above BUF_BYTES is no access (R242; log entry 7). -/
def execIbufRd8 (off : BitVec 16) (s : State) : Host.Outcome State Fault Refusal :=
  if s.cur.params.bufBytes ≤ off.toNat then .next (onCur (raiseFault (.busError (1#1 ++ off))) s)
  else match Memory.read s.cur.ibuf off.toNat with
    | none => .next (onCur (raiseFault (.uninitialisedRead off.toNat)) s)
    | some b => .next (returnData (b.setWidth 32) s)

/-- IBUF_WR8 (44_control_and_bus.md R241): the hazard of 70_reset_and_hazards.md R300 while BUSY = 1. An offset at or above
BUF_BYTES is no access (R242; log entry 7). -/
def execIbufWr8 (off : BitVec 16) (b : Byte) (s : State) : Host.Outcome State Fault Refusal :=
  if s.cur.params.bufBytes ≤ off.toNat then .next (onCur (raiseFault (.busError (1#1 ++ off))) s)
  else if s.cur.status.busy then .next (onCur (raiseFault (.bufferWriteWhileBusy off.toNat)) s)
  else .next (onCur (storeByte off.toNat b) s)

end Sys2Proof.Machine
end

