-- ==== Sys2Proof/Machine/Control.lean ====
section
/-! DEFINITION. NOP and CLEAR, the two commands that are not operations of the engine (44_control_and_bus.md R234, R235). -/

namespace Sys2Proof.Machine

/-- NOP: the CMD write of 0x00000000 or, with the ignored PROTO bit, 0x00000100 (44_control_and_bus.md R234). -/
def execNop (proto : BitVec 1) (s : State) : Host.Outcome State Fault Refusal :=
  .next (onCur (writeCmd (commandWord 0x0 proto)) s)

/-- CLEAR: the CMD write of 0x00000003 or, with the ignored PROTO bit, 0x00000103 (44_control_and_bus.md R235). -/
def execClear (proto : BitVec 1) (s : State) : Host.Outcome State Fault Refusal :=
  .next (onCur (writeCmd (commandWord 0x3 proto)) s)

end Sys2Proof.Machine
end

