-- ==== Sys2Proof/Machine/Tcp.lean ====
section
/-! DEFINITION. DECODE.TCP and the TCP header extractor and validator (40_tcp_decoder.md). -/

namespace Sys2Proof.Machine

/-- Steps 3 to 7 of `TcpBody` (40_tcp_decoder.md R141), on the eight fixed fields of the header at `b`: the record of R147, or
the first check that fails (R144, R145). `w` is the offset/flags word (30_encoding.md R112). -/
def tcpChecks (b len : Nat) (src dst : Half) (seq ack : Word) (w win csum urg : Half) : Except Stop Record :=
  let doff := w.extractLsb' 12 4
  let hlen := 4 * doff.toNat
  if doff.toNat < 5 then .error (.finish .invalidHeaderLength)
  else if len < hlen then .error (.finish .truncated)
  else if w.extractLsb' 9 3 ≠ 0 then .error (.finish .reservedBitsSet)
  else .ok
    { srcPort := src
      dstPort := dst
      seq := seq
      ack := ack
      doff := doff
      rsvd := w.extractLsb' 9 3
      flags := w.extractLsb' 0 9
      window := win
      checksum := csum
      urgent := urg
      udpLen := 0
      segOff := BitVec.ofNat 17 b
      segLen := BitVec.ofNat 17 len
      optOff := BitVec.ofNat 17 (b + 20)
      optLen := BitVec.ofNat 17 (hlen - 20)
      payOff := BitVec.ofNat 17 (b + hlen)
      payLen := BitVec.ofNat 17 (len - hlen) }

/-- `TcpBody(b, L)` (40_tcp_decoder.md R141): step 1 before any byte is read, step 2 before any later check (R142). -/
def tcpBody (p : Pseg) (b len : Nat) : Except Stop Record :=
  if len < 20 then .error (.finish .truncated)
  else do
    let src ← be16 p b
    let dst ← be16 p (b + 2)
    let seq ← be32 p (b + 4)
    let ack ← be32 p (b + 8)
    let w ← be16 p (b + 12)
    let win ← be16 p (b + 14)
    let csum ← be16 p (b + 16)
    let urg ← be16 p (b + 18)
    tcpChecks b len src dst seq ack w win csum urg

/-- `complete DECODE.TCP` (40_tcp_decoder.md R140). -/
def decodeTcpBody (p : Pseg) : Except Stop Record := ifInBuffer p (tcpBody p 0 p.latLen.toNat)

/-- DECODE.TCP: the CMD write of 0x00000001 (40_tcp_decoder.md R140, 44_control_and_bus.md R230). -/
def execDecodeTcp (s : State) : Host.Outcome State Fault Refusal :=
  .next (onCur (writeCmd 0x00000001#32) s)

end Sys2Proof.Machine
end

