-- ==== Sys2Proof/Machine/Udp.lean ====
section
/-! DEFINITION. DECODE.UDP and the UDP header extractor and length checker (41_udp_decoder.md). -/

namespace Sys2Proof.Machine

/-- Steps 3 to 5 of `UdpBody` (41_udp_decoder.md R161), on the four fields of the header at `b`: the record of R166, or
the first check that fails (R163, R164). -/
def udpChecks (b len : Nat) (src dst ulen csum : Half) : Except Stop Record :=
  if ulen.toNat < 8 then .error (.finish .invalidLength)
  else if ulen.toNat ≠ len then .error (.finish .lengthMismatch)
  else .ok
    { Record.zero with
      srcPort := src
      dstPort := dst
      checksum := csum
      udpLen := ulen
      segOff := BitVec.ofNat 17 b
      segLen := BitVec.ofNat 17 len
      payOff := BitVec.ofNat 17 (b + 8)
      payLen := BitVec.ofNat 17 (ulen.toNat - 8) }

/-- `UdpBody(b, L)` (41_udp_decoder.md R161): step 1 before any byte is read, all four fields before step 3 (R162). -/
def udpBody (p : Pseg) (b len : Nat) : Except Stop Record :=
  if len < 8 then .error (.finish .truncated)
  else do
    let src ← be16 p b
    let dst ← be16 p (b + 2)
    let ulen ← be16 p (b + 4)
    let csum ← be16 p (b + 6)
    udpChecks b len src dst ulen csum

/-- `complete DECODE.UDP` (41_udp_decoder.md R160). -/
def decodeUdpBody (p : Pseg) : Except Stop Record := ifInBuffer p (udpBody p 0 p.latLen.toNat)

/-- DECODE.UDP: the CMD write of 0x00000101 (41_udp_decoder.md R160, 44_control_and_bus.md R230). -/
def execDecodeUdp (s : State) : Host.Outcome State Fault Refusal :=
  .next (onCur (writeCmd 0x00000101#32) s)

end Sys2Proof.Machine
end

