-- ==== Sys2Proof/Machine/Router.lean ====
section
/-! DEFINITION. ROUTE.TCP, ROUTE.UDP and the frame router and demultiplexer (43_frame_router.md). -/

namespace Sys2Proof.Machine

/-- `RouteBody(L, want)` (43_frame_router.md R202): the offset and the length of the inner segment, or the first check of
the envelope that fails (R203 to R207, R209). -/
def routeBody (p : Pseg) (len : Nat) (want : Byte) : Except Stop (Nat × Nat) :=
  if len < 14 then .error (.finish .routeFrameTruncated)
  else do
    let etherType ← be16 p 12
    if etherType ≠ 0x0800 then .error (.finish .routeNotIpv4)
    else if len < 34 then .error (.finish .routeFrameTruncated)
    else do
      let vihl ← byteAt p 14
      let iphl := 4 * (vihl.extractLsb' 0 4).toNat
      if vihl.extractLsb' 4 4 ≠ 4 ∨ (vihl.extractLsb' 0 4).toNat < 5 then .error (.finish .routeBadIpHeader)
      else if len < 14 + iphl then .error (.finish .routeFrameTruncated)
      else do
        let iplen ← be16 p 16
        if iplen.toNat < iphl then .error (.finish .routeBadIpHeader)
        else if len < 14 + iplen.toNat then .error (.finish .routeFrameTruncated)
        else do
          let proto ← byteAt p 23
          if proto ≠ want then .error (.finish .routeProtocolMismatch)
          else do
            let frag ← be16 p 20
            if frag.extractLsb' 0 13 ≠ 0 then .error (.finish .routeFragment)
            else .ok (14 + iphl, if p.params.routeLenFromIp then iplen.toNat - iphl else len - 14 - iphl)

/-- `complete ROUTE.TCP` (43_frame_router.md R200): IPv4 protocol 6, then `TcpBody`. -/
def routeTcpBody (p : Pseg) : Except Stop Record :=
  ifInBuffer p (do
    let seg ← routeBody p p.latLen.toNat 6
    tcpBody p seg.1 seg.2)

/-- `complete ROUTE.UDP` (43_frame_router.md R201): IPv4 protocol 17, then `UdpBody`. -/
def routeUdpBody (p : Pseg) : Except Stop Record :=
  ifInBuffer p (do
    let seg ← routeBody p p.latLen.toNat 17
    udpBody p seg.1 seg.2)

/-- ROUTE.TCP: the CMD write of 0x00000002 (43_frame_router.md R200); an illegal command without the router
(44_control_and_bus.md R233). -/
def execRouteTcp (s : State) : Host.Outcome State Fault Refusal :=
  .next (onCur (writeCmd 0x00000002#32) s)

/-- ROUTE.UDP: the CMD write of 0x00000102 (43_frame_router.md R201); an illegal command without the router
(44_control_and_bus.md R233). -/
def execRouteUdp (s : State) : Host.Outcome State Fault Refusal :=
  .next (onCur (writeCmd 0x00000102#32) s)

end Sys2Proof.Machine
end

