-- ==== Sys2Proof/Machine/Dispatch.lean ====
section
/-! DEFINITION. The meaning of every instruction: one arm for each constructor of Instr. -/

namespace Sys2Proof.Machine

def exec (i : Instr) (s : State) : Host.Outcome State Fault Refusal :=
  match i with
  | .nop proto => Sys2Proof.Machine.execNop proto s
  | .decodeTcp => Sys2Proof.Machine.execDecodeTcp s
  | .decodeUdp => Sys2Proof.Machine.execDecodeUdp s
  | .routeTcp => Sys2Proof.Machine.execRouteTcp s
  | .routeUdp => Sys2Proof.Machine.execRouteUdp s
  | .clear proto => Sys2Proof.Machine.execClear proto s
  | .csrRd32 r => Sys2Proof.Machine.execCsrRd32 r s
  | .csrWr32 r wdata => Sys2Proof.Machine.execCsrWr32 r wdata s
  | .ibufRd8 off => Sys2Proof.Machine.execIbufRd8 off s
  | .ibufWr8 off b => Sys2Proof.Machine.execIbufWr8 off b s

end Sys2Proof.Machine
end

