-- ==== Sys2Proof/Machine/Engine.lean ====
section
/-! DEFINITION. The engine's one step, the completion (44_control_and_bus.md R232, 60_exceptions.md R264). -/

namespace Sys2Proof.Machine

/-- The body that LAT_OP and LAT_PROTO name (44_control_and_bus.md R232), run against IBUF and LAT_LEN; none where they name
none, which no accept leaves (log entry 9). -/
def engineBody (p : Pseg) : Option (Except Stop Record) :=
  if p.latOp = 0x1 then some (if p.latProto = 0 then decodeTcpBody p else decodeUdpBody p)
  else if p.latOp = 0x2 then some (if p.latProto = 0 then routeTcpBody p else routeUdpBody p)
  else none

/-- The completion (60_exceptions.md R264): enabled only while BUSY = 1 and the FAULT mark is clear; otherwise the engine has
no step and nothing changes. -/
def complete (p : Pseg) : Pseg :=
  if p.status.busy && p.fault.isNone then
    match engineBody p with
    | some v => settle v p
    | none => p
  else p

end Sys2Proof.Machine
end

