-- ==== Sys2Proof/Machine/Turns.lean ====
section
/-! DEFINITION. One turn of the interleaving of host accesses, engine steps and resets (20_memory.md R90, 60_exceptions.md R271). -/

namespace Sys2Proof.Machine

/-- A host access to instance `k`: the instruction its request and data word are, or the bus error of
44_control_and_bus.md R242, which changes no PSEG state but the model's FAULT mark. -/
def runAccess (k : Nat) (req : BitVec 20) (wdata : Word) (s : State) : Host.Outcome State Fault Refusal :=
  match select k s with
  | none => .refused (.noSuchInst k)
  | some t =>
    match decode t.cur.params req wdata with
    | .ok i => exec i t
    | .error (.busError addr) => .next (onCur (raiseFault (.busError addr)) t)

/-- An engine step of instance `k`. -/
def runEngine (k : Nat) (s : State) : Host.Outcome State Fault Refusal :=
  match select k s with
  | none => .refused (.noSuchInst k)
  | some t => .next (onCur complete t)

/-- The host has issued its last access: an owed completion happens, the lowest-numbered busy instance's first, and when
none is owed the machine stays as it is (60_exceptions.md R276, 70_reset_and_hazards.md R305; log entry 3). -/
def runIdle (s : State) : Host.Outcome State Fault Refusal :=
  match (instances s).findIdx? (fun p => p.status.busy) with
  | some k => runEngine k s
  | none => .next s

/-- One turn, which has already left the schedule. A reset happens in any state; every other turn has no meaning
once a model fault is recorded (00_scope.md R17(c), 60_exceptions.md R270; log entry 6). -/
def runTurn (t : Turn) (s : State) : Host.Outcome State Fault Refusal :=
  match t with
  | .reset => .next (resetAll s)
  | .access k req wdata =>
    match anyFault s with
    | some f => .fault f
    | none => runAccess k req wdata s
  | .engine k =>
    match anyFault s with
    | some f => .fault f
    | none => runEngine k s

/-- The next turn of the schedule, or what happens when there is none. -/
def runNext (s : State) : Host.Outcome State Fault Refusal :=
  match s.turns with
  | t :: ts => runTurn t { s with turns := ts }
  | [] =>
    match anyFault s with
    | some f => .fault f
    | none => runIdle s

/-- The schedule with a host access to the addressed instance put first. -/
def pushAccess (req : BitVec 20) (wdata : Word) (s : State) : State :=
  { s with turns := .access s.before.length req wdata :: s.turns }

end Sys2Proof.Machine
end

