-- ==== Sys2Proof/Machine/Step.lean ====
section
/-! DEFINITION. The step of the machine, and where a table word is placed so that the next step runs it. -/

namespace Sys2Proof.Machine

/-- One step: the next turn of the schedule (20_memory.md R90: one access or one engine step at a time). -/
def step (s : State) : Host.Outcome State Fault Refusal := runNext s

/-- The state in which the host's next access is the one the table word stands for (log entry 2). -/
def State.withFetchWord (s : State) (nbits w : Nat) : State :=
  match tableAccess nbits w with
  | some (req, wdata) => pushAccess req wdata s
  | none => s

end Sys2Proof.Machine
end

