-- ==== Sys2Proof/Machine/HostProgram.lean ====
section
/-! DEFINITION. The host program notation (30_encoding.md R107, R108) as turns of the schedule. -/

namespace Sys2Proof.Machine

/-- `lw NAME` to instance `k`. -/
def hostLw (k : Nat) (r : Csr) : Turn := .access k (csrRequest 0 r) 0

/-- `sw NAME, imm32`. -/
def hostSw (k : Nat) (r : Csr) (w : Word) : Turn := .access k (csrRequest 1 r) w

/-- `lb off`. -/
def hostLb (k off : Nat) : Turn := .access k (ibufRequest 0 (BitVec.ofNat 16 off)) 0

/-- `sb off, imm8`. -/
def hostSb (k off : Nat) (b : Byte) : Turn := .access k (ibufRequest 1 (BitVec.ofNat 16 off)) (0#24 ++ b)

/-- `buf off, b0, b1, …`: the bytes in that order (R108). -/
def hostBuf (k : Nat) : Nat → List Byte → List Turn
  | _, [] => []
  | off, b :: bs => hostSb k off b :: hostBuf k (off + 1) bs

/-- `setlen n`. -/
def hostSetlen (k : Nat) (n : Word) : Turn := hostSw k .len n

/-- The canonical word of a command (R108); ILLEGAL has none. -/
def canonicalWord : Command → Option Word
  | .nop => some 0x00000000
  | .decodeTcp => some 0x00000001
  | .decodeUdp => some 0x00000101
  | .routeTcp => some 0x00000002
  | .routeUdp => some 0x00000102
  | .clear => some 0x00000003
  | .illegal => none

/-- `cmd M`. -/
def hostCmd (k : Nat) (m : Command) : Option Turn := (canonicalWord m).map (hostSw k .cmd)

/-- `wait`, as 95_test_vectors.md 0.3 writes it: the completion, and the STATUS read that ends the loop (log entry 15). -/
def hostWait (k : Nat) : List Turn := [.engine k, hostLw k .status]

end Sys2Proof.Machine
end

