-- ==== Sys2Proof/Machine/Render.lean ====
section
/-! DEFINITION. The host-side reference renderer (42_renderer.md): an observation helper outside the block, which no step
calls (log entry 14). Texts are lists of characters. -/

namespace Sys2Proof.Machine

/-- Unsigned decimal with no leading zeros (42_renderer.md R181). -/
def decimal (n : Nat) : List Char := Nat.toDigits 10 n

/-- An upper-case hexadecimal digit. -/
def hexDigit (v : BitVec 4) : Char := "0123456789ABCDEF".toList.getD v.toNat '0'

/-- The checksum: `0x` and four digits (R181). -/
def hex4 (v : BitVec 16) : List Char :=
  "0x".toList ++ [hexDigit (v.extractLsb' 12 4), hexDigit (v.extractLsb' 8 4), hexDigit (v.extractLsb' 4 4),
    hexDigit (v.extractLsb' 0 4)]

/-- The reserved bits: `0x` and one digit (R181). -/
def hex1 (v : BitVec 3) : List Char := "0x".toList ++ [hexDigit (v.setWidth 4)]

/-- One byte of a dump (R183): itself where printable, 0x20 to 0x7E; else `0x` and two digits. -/
def renderByte (v : Byte) : List Char :=
  if 0x20 ≤ v.toNat ∧ v.toNat ≤ 0x7E then [Char.ofNat v.toNat]
  else "0x".toList ++ [hexDigit (v.extractLsb' 4 4), hexDigit (v.extractLsb' 0 4)]

/-- The bytes of a dump, joined with one space (R183). -/
def renderBytes (bs : List Byte) : List Char := List.intercalate [' '] (bs.map renderByte)

/-- The names of the set flags in the canonical order (R182); ECE and CWR only when RENDER_ECN = 1. -/
def flagNames (ecn : Bool) (f : BitVec 9) : List (List Char) :=
  let named : List (Bool × List Char) :=
    [(f.getLsbD 5, "URG".toList), (f.getLsbD 4, "ACK".toList), (f.getLsbD 3, "PSH".toList),
     (f.getLsbD 2, "RST".toList), (f.getLsbD 1, "SYN".toList), (f.getLsbD 0, "FIN".toList),
     (ecn && f.getLsbD 6, "ECE".toList), (ecn && f.getLsbD 7, "CWR".toList)]
  (named.filter (fun x => x.1)).map (fun x => x.2)

/-- The flag list (R182): `[none]` where no listed bit is set. -/
def renderFlags (ecn : Bool) (f : BitVec 9) : List Char :=
  match flagNames ecn f with
  | [] => "[none]".toList
  | names => "[".toList ++ List.intercalate ", ".toList names ++ "]".toList

/-- The IBUF bytes of a descriptor, read one by one as the host does (R180, R186). -/
def descriptorBytes (p : Pseg) : Nat → Nat → Except Stop (List Byte)
  | _, 0 => .ok []
  | off, n + 1 => do
    let b ← byteAt p off
    let bs ← descriptorBytes p (off + 1) n
    .ok (b :: bs)

/-- One line: its label, its text and a line feed (R184). -/
def textLine (label : String) (text : List Char) : List Char := label.toList ++ text ++ ['\n']

/-- The text of a TCP record (R184). -/
def tcpText (ecn : Bool) (r : Record) (opts pay : List Byte) : List Char :=
  textLine "TCP Segment" []
    ++ textLine "  Source Port: " (decimal r.srcPort.toNat)
    ++ textLine "  Destination Port: " (decimal r.dstPort.toNat)
    ++ textLine "  Sequence Number: " (decimal r.seq.toNat)
    ++ textLine "  Acknowledgment Number: " (decimal r.ack.toNat)
    ++ textLine "  Data Offset: " (decimal r.doff.toNat)
    ++ textLine "  Reserved: " (hex1 r.rsvd)
    ++ textLine "  Flags: " (renderFlags ecn r.flags)
    ++ textLine "  Window Size: " (decimal r.window.toNat)
    ++ textLine "  Checksum: " (hex4 r.checksum)
    ++ textLine "  Urgent Pointer: " (decimal r.urgent.toNat)
    ++ textLine "  Options: " (decimal r.optLen.toNat ++ " bytes".toList)
    ++ textLine "  Options Data: " (renderBytes opts)
    ++ textLine "  Payload: " (decimal r.payLen.toNat ++ " bytes".toList)
    ++ textLine "  Payload Data: " (renderBytes pay)

/-- The text of a UDP record (R184). -/
def udpText (r : Record) (pay : List Byte) : List Char :=
  textLine "UDP Datagram" []
    ++ textLine "  Source Port: " (decimal r.srcPort.toNat)
    ++ textLine "  Destination Port: " (decimal r.dstPort.toNat)
    ++ textLine "  Length: " (decimal r.udpLen.toNat)
    ++ textLine "  Checksum: " (hex4 r.checksum)
    ++ textLine "  Payload: " (decimal r.payLen.toNat ++ " bytes".toList)
    ++ textLine "  Payload Data: " (renderBytes pay)

/-- `Render(rec)` (R180, R184), for an instance whose last completion has VALID = 1; `ecn` is RENDER_ECN (00_scope.md R12).
It stops only where a byte of a descriptor has never been written. -/
def render (ecn : Bool) (p : Pseg) : Except Stop (List Char) := do
  let opts ← descriptorBytes p p.record.optOff.toNat p.record.optLen.toNat
  let pay ← descriptorBytes p p.record.payOff.toNat p.record.payLen.toNat
  .ok (if p.status.lastProto = 0 then tcpText ecn p.record opts pay else udpText p.record pay)

end Sys2Proof.Machine
end

