-- ==== Sys2Proof/Safety.lean ====
section
/-! DEFINITION. What the spec says holds of every reachable state, and when a run has ended. -/

namespace Sys2Proof.Machine

/-- The invariants of STATUS (10_state.md R36). -/
def StatusInv (t : Status) : Prop :=
  (t.busy = true → t.done = false ∧ t.err = false ∧ t.valid = false ∧ t.code = .ok)
    ∧ (t.done = false → t.err = false ∧ t.valid = false ∧ t.code = .ok)
    ∧ (t.done = true → t.err = !t.valid ∧ (t.err = true ↔ t.code ≠ .ok))

/-- What a TCP record satisfies (10_state.md R42, R45, R47, R48; 40_tcp_decoder.md R147). -/
def TcpRecordInv (r : Record) : Prop :=
  r.rsvd = 0 ∧ 5 ≤ r.doff.toNat ∧ r.udpLen = 0
    ∧ r.optOff.toNat = r.segOff.toNat + 20 ∧ r.optLen.toNat + 20 = 4 * r.doff.toNat
    ∧ r.payOff.toNat = r.segOff.toNat + 4 * r.doff.toNat
    ∧ r.payLen.toNat + 4 * r.doff.toNat = r.segLen.toNat

/-- What a UDP record satisfies (10_state.md R38, R45, R48; 41_udp_decoder.md R166). -/
def UdpRecordInv (r : Record) : Prop :=
  r.udpLen.toNat = r.segLen.toNat ∧ r.payLen.toNat + 8 = r.segLen.toNat
    ∧ r.payOff.toNat = r.segOff.toNat + 8
    ∧ r.seq = 0 ∧ r.ack = 0 ∧ r.doff = 0 ∧ r.rsvd = 0 ∧ r.flags = 0 ∧ r.window = 0 ∧ r.urgent = 0
    ∧ r.optOff = 0 ∧ r.optLen = 0

/-- The record registers against STATUS (10_state.md R38, R46; 60_exceptions.md R266): all 0 unless VALID, and then a record of
the protocol LAST_PROTO names that lies inside the buffer. -/
def RecordInv (p : Pseg) : Prop :=
  (p.status.valid = false → p.record = .zero)
    ∧ (p.status.valid = true → p.record.segOff.toNat + p.record.segLen.toNat ≤ p.params.bufBytes)
    ∧ (p.status.valid = true → p.status.lastProto = 0 → TcpRecordInv p.record)
    ∧ (p.status.valid = true → p.status.lastProto = 1 → UdpRecordInv p.record)

/-- The latches while an operation is in flight (10_state.md R52(a), 44_control_and_bus.md R232): STATUS shows them, and they name
an operation this PSEG has. -/
def LatchInv (p : Pseg) : Prop :=
  p.status.busy = true →
    p.status.lastOp = p.latOp ∧ p.status.lastProto = p.latProto
      ∧ (p.latOp = 0x1 ∨ (p.latOp = 0x2 ∧ p.params.hasRouter = true))

/-- IBUF is in its canonical form and holds no cell at or above BUF_BYTES (10_state.md R50). -/
def BufferInv (p : Pseg) : Prop := Memory.wf p.ibuf ∧ Memory.within p.params.bufBytes p.ibuf

/-- Everything above, of one instance. -/
def PsegInv (p : Pseg) : Prop := StatusInv p.status ∧ RecordInv p ∧ LatchInv p ∧ BufferInv p

/-- Everything above, of every instance. -/
def Inv (s : State) : Prop := ∀ p ∈ instances s, PsegInv p

/-- The end of a run (60_exceptions.md R276). -/
def Final (s : State) : Prop :=
  s.turns = [] ∧ (∀ p ∈ instances s, p.status.busy = false) ∧ ∀ p ∈ instances s, p.fault = none

end Sys2Proof.Machine
end

