-- ==== Sys2Proof/Certificates/Slice0/Obligations.lean ====
section
/-! DEFINITION. The statements for the provers. What the spec gives an operation is written out here by field, in the
namespace `Stated`, and not through the model's own operations. -/

namespace Sys2Proof.Stated

open Sys2Proof.Machine

/-- An instance after the accept of a DECODE or ROUTE word (44_control_and_bus.md R231). -/
def accepted (op : BitVec 4) (proto : BitVec 1) (p : Pseg) : Pseg :=
  { p with
    latOp := op, latProto := proto, latLen := p.len
    status := { busy := true, done := false, err := false, valid := false, overrun := p.status.overrun,
                code := .ok, lastOp := op, lastProto := proto }
    record := Record.zero }

/-- An instance after an illegal command word with this OP (44_control_and_bus.md R233). -/
def refusedWord (op : BitVec 4) (p : Pseg) : Pseg :=
  { p with
    status := { busy := false, done := true, err := true, valid := false, overrun := p.status.overrun,
                code := .illegalCommand, lastOp := op, lastProto := p.status.lastProto }
    record := Record.zero }

/-- An instance after CLEAR (44_control_and_bus.md R235). -/
def cleared (p : Pseg) : Pseg :=
  { p with
    status := { busy := false, done := false, err := false, valid := false, overrun := false,
                code := .ok, lastOp := 0, lastProto := 0 }
    record := Record.zero }

/-- An instance whose OVERRUN is set (44_control_and_bus.md R236). -/
def overrun (p : Pseg) : Pseg := { p with status := { p.status with overrun := true } }

/-- An instance after `finish(code)` (60_exceptions.md R264). -/
def failed (c : StatusCode) (p : Pseg) : Pseg :=
  { p with
    status := { busy := false, done := true, err := true, valid := false, overrun := p.status.overrun,
                code := c, lastOp := p.status.lastOp, lastProto := p.status.lastProto } }

/-- An instance after `commit(rec)` (60_exceptions.md R264). -/
def succeeded (r : Record) (p : Pseg) : Pseg :=
  { p with
    status := { busy := false, done := true, err := false, valid := true, overrun := p.status.overrun,
                code := .ok, lastOp := p.status.lastOp, lastProto := p.status.lastProto }
    record := r }

/-- An instance with its FAULT mark set (60_exceptions.md R270). -/
def marked (f : Fault) (p : Pseg) : Pseg := { p with fault := some f }

/-- What a completion does with the way its body ended. -/
def settled (v : Except Stop Record) (p : Pseg) : Pseg :=
  match v with
  | .ok r => succeeded r p
  | .error (.finish c) => failed c p
  | .error (.raise f) => marked f p

/-- The big-endian number of two bytes. -/
def two (x : Nat → Byte) (a : Nat) : Nat := (x a).toNat * 256 + (x (a + 1)).toNat

/-- The big-endian number of four bytes. -/
def four (x : Nat → Byte) (a : Nat) : Nat := two x a * 65536 + two x (a + 2)

/-- The TCP data offset of a header with bytes `x` (30_encoding.md R112: the top four bits of byte 12). -/
def doffOf (x : Nat → Byte) : Nat := (x 12).toNat / 16

/-- The record of a TCP segment at `b` of length `len` whose header bytes are `x` (40_tcp_decoder.md R147). -/
def tcpRecord (x : Nat → Byte) (b len : Nat) : Record :=
  { srcPort := BitVec.ofNat 16 (two x 0)
    dstPort := BitVec.ofNat 16 (two x 2)
    seq := BitVec.ofNat 32 (four x 4)
    ack := BitVec.ofNat 32 (four x 8)
    doff := BitVec.ofNat 4 (doffOf x)
    rsvd := 0
    flags := BitVec.ofNat 9 (two x 12 % 512)
    window := BitVec.ofNat 16 (two x 14)
    checksum := BitVec.ofNat 16 (two x 16)
    urgent := BitVec.ofNat 16 (two x 18)
    udpLen := 0
    segOff := BitVec.ofNat 17 b
    segLen := BitVec.ofNat 17 len
    optOff := BitVec.ofNat 17 (b + 20)
    optLen := BitVec.ofNat 17 (4 * doffOf x - 20)
    payOff := BitVec.ofNat 17 (b + 4 * doffOf x)
    payLen := BitVec.ofNat 17 (len - 4 * doffOf x) }

/-- The record of a UDP datagram at `b` of length `len` whose header bytes are `x` (41_udp_decoder.md R166). -/
def udpRecord (x : Nat → Byte) (b len : Nat) : Record :=
  { srcPort := BitVec.ofNat 16 (two x 0)
    dstPort := BitVec.ofNat 16 (two x 2)
    seq := 0, ack := 0, doff := 0, rsvd := 0, flags := 0, window := 0
    checksum := BitVec.ofNat 16 (two x 6)
    urgent := 0
    udpLen := BitVec.ofNat 16 (two x 4)
    segOff := BitVec.ofNat 17 b
    segLen := BitVec.ofNat 17 len
    optOff := 0, optLen := 0
    payOff := BitVec.ofNat 17 (b + 8)
    payLen := BitVec.ofNat 17 (two x 4 - 8) }

/-- How `TcpBody` ends on a header with bytes `x`: the checks in the order of 40_tcp_decoder.md R141. -/
def tcpOutcome (x : Nat → Byte) (b len : Nat) : Except Stop Record :=
  if len < 20 then .error (.finish .truncated)
  else if doffOf x < 5 then .error (.finish .invalidHeaderLength)
  else if len < 4 * doffOf x then .error (.finish .truncated)
  else if (x 12).toNat / 2 % 8 ≠ 0 then .error (.finish .reservedBitsSet)
  else .ok (tcpRecord x b len)

/-- How `UdpBody` ends on a header with bytes `x`: the checks in the order of 41_udp_decoder.md R161. -/
def udpOutcome (x : Nat → Byte) (b len : Nat) : Except Stop Record :=
  if len < 8 then .error (.finish .truncated)
  else if two x 4 < 8 then .error (.finish .invalidLength)
  else if two x 4 ≠ len then .error (.finish .lengthMismatch)
  else .ok (udpRecord x b len)

/-- The IPv4 header length of a frame with bytes `x`. -/
def iphlOf (x : Nat → Byte) : Nat := 4 * ((x 14).toNat % 16)

/-- How `RouteBody` ends on a frame with bytes `x`: the checks in the order of 43_frame_router.md R202. -/
def routeOutcome (fromIp : Bool) (x : Nat → Byte) (len want : Nat) : Except Stop (Nat × Nat) :=
  if len < 14 then .error (.finish .routeFrameTruncated)
  else if two x 12 ≠ 0x0800 then .error (.finish .routeNotIpv4)
  else if len < 34 then .error (.finish .routeFrameTruncated)
  else if (x 14).toNat / 16 ≠ 4 ∨ (x 14).toNat % 16 < 5 then .error (.finish .routeBadIpHeader)
  else if len < 14 + iphlOf x then .error (.finish .routeFrameTruncated)
  else if two x 16 < iphlOf x then .error (.finish .routeBadIpHeader)
  else if len < 14 + two x 16 then .error (.finish .routeFrameTruncated)
  else if (x 23).toNat ≠ want then .error (.finish .routeProtocolMismatch)
  else if two x 20 % 8192 ≠ 0 then .error (.finish .routeFragment)
  else .ok (14 + iphlOf x, if fromIp then two x 16 - iphlOf x else len - 14 - iphlOf x)

/-- The frame bytes the router reads, in the order in which its steps read them (43_frame_router.md R211). -/
def envelopeOrder : List Nat := [12, 13, 14, 16, 17, 23, 20, 21]

/-- The steps of 43_frame_router.md R202 get past step 3 on a frame with bytes `x`, so that step 4 reads byte 14. -/
def ReachesVersion (x : Nat → Byte) (len : Nat) : Prop := 34 ≤ len ∧ two x 12 = 0x0800

/-- They get past step 5, so that step 6 reads bytes 16 and 17. -/
def ReachesTotalLength (x : Nat → Byte) (len : Nat) : Prop :=
  ReachesVersion x len ∧ (x 14).toNat / 16 = 4 ∧ 5 ≤ (x 14).toNat % 16 ∧ 14 + iphlOf x ≤ len

/-- They get past step 6, so that step 7 reads byte 23. -/
def ReachesProtocol (x : Nat → Byte) (len : Nat) : Prop :=
  ReachesTotalLength x len ∧ iphlOf x ≤ two x 16 ∧ 14 + two x 16 ≤ len

/-- A step of 43_frame_router.md R202 reads frame byte `a` of a frame whose bytes are `x` (R211). -/
def RouteReaches (x : Nat → Byte) (len want a : Nat) : Prop :=
  ((a = 12 ∨ a = 13) ∧ 14 ≤ len)
    ∨ (a = 14 ∧ ReachesVersion x len)
    ∨ ((a = 16 ∨ a = 17) ∧ ReachesTotalLength x len)
    ∨ (a = 23 ∧ ReachesProtocol x len)
    ∨ ((a = 20 ∨ a = 21) ∧ ReachesProtocol x len ∧ (x 23).toNat = want)

/-- The cells from `a` on, `n` of them, hold the bytes `x 0`, `x 1`, … -/
def Holds (p : Pseg) (a n : Nat) (x : Nat → Byte) : Prop :=
  ∀ j < n, a + j < p.params.bufBytes ∧ Memory.read p.ibuf (a + j) = some (x j)

/-- The record registers, offsets 0x20 to 0x60 (10_state.md R38). -/
def recordCsrs : List Csr :=
  [.srcPort, .dstPort, .seq, .ack, .doff, .rsvd, .flags, .window, .checksum, .urgent,
   .udpLen, .segOff, .segLen, .optOff, .optLen, .payOff, .payLen]

/-- The instance a turn addresses; a reset addresses none. -/
def addressee : Turn → Option Nat
  | .access k _ _ => some k
  | .engine k => some k
  | .reset => none

/-- How many instances are busy. -/
def busyCount (s : State) : Nat := (instances s).countP (fun p => p.status.busy)

/-- The request word of a 32-bit access to a mapped register (30_encoding.md R106), by its fields. -/
def IsCsrRequest (q : BitVec 20) : Prop :=
  (q.extractLsb' 17 2).toNat = 2 ∧ (q.extractLsb' 16 1).toNat = 0 ∧ (q.extractLsb' 0 16).toNat % 4 = 0
    ∧ ((q.extractLsb' 0 16).toNat ≤ 0x14
      ∨ (0x20 ≤ (q.extractLsb' 0 16).toNat ∧ (q.extractLsb' 0 16).toNat ≤ 0x60))

/-- The request word of an 8-bit access to a populated IBUF offset (30_encoding.md R106), by its fields. -/
def IsIbufRequest (c : Params) (q : BitVec 20) : Prop :=
  (q.extractLsb' 17 2).toNat = 0 ∧ (q.extractLsb' 16 1).toNat = 1
    ∧ (q.extractLsb' 0 16).toNat < c.bufBytes

/-- The upper-case hexadecimal digit of a number below 16. -/
def digitOf (n : Nat) : Char := Char.ofNat (if n < 10 then 48 + n else 55 + n)

/-- The flag names the renderer lists with their R_FLAGS bits, in the order of 42_renderer.md R182. -/
def flagOrder (ecn : Bool) : List (Nat × List Char) :=
  [(5, ['U', 'R', 'G']), (4, ['A', 'C', 'K']), (3, ['P', 'S', 'H']), (2, ['R', 'S', 'T']), (1, ['S', 'Y', 'N']),
    (0, ['F', 'I', 'N'])]
  ++ (if ecn then [(6, ['E', 'C', 'E']), (7, ['C', 'W', 'R'])] else [])

/-- The cells from `a` on hold exactly the bytes of a list. -/
def HoldsBytes (p : Pseg) (a : Nat) (bs : List Byte) : Prop :=
  ∀ (j : Nat) (b : Byte), bs[j]? = some b → a + j < p.params.bufBytes ∧ Memory.read p.ibuf (a + j) = some b

/-- Lines, each ending in one line feed. -/
def lines (ls : List (List Char)) : List Char := ls.flatMap (fun l => l ++ ['\n'])

end Sys2Proof.Stated

open Sys2Proof Sys2Proof.Machine Sys2Proof.Stated

/-! ### Commands -/

/-- 44_control_and_bus.md R234: "changes no state at all, whether BUSY is 0 or 1". -/
def Obligations.NopChangesNothing : Prop :=
  ∀ (proto : BitVec 1) (s : State), exec (.nop proto) s = .next s

/-- 44_control_and_bus.md R231, for all four words; the ROUTE words exist only with the router. Nothing but the addressed
instance's latches, STATUS and record changes. -/
def Obligations.AcceptLatchesAndClears : Prop :=
  ∀ s : State, s.cur.status.busy = false →
    exec .decodeTcp s = .next { s with cur := accepted 0x1 0 s.cur }
    ∧ exec .decodeUdp s = .next { s with cur := accepted 0x1 1 s.cur }
    ∧ (s.cur.params.hasRouter = true →
        exec .routeTcp s = .next { s with cur := accepted 0x2 0 s.cur }
        ∧ exec .routeUdp s = .next { s with cur := accepted 0x2 1 s.cur })

/-- 44_control_and_bus.md R233, the rule's own list of the illegal words; ROUTE.TCP and ROUTE.UDP are such words
without the router. -/
def Obligations.IllegalCommandCompletesAtOnce : Prop :=
  ∀ s : State, s.cur.status.busy = false →
    (∀ w : Word,
      (4 ≤ (w.extractLsb' 0 4).toNat ∨ w.extractLsb' 4 4 ≠ 0 ∨ w.extractLsb' 9 23 ≠ 0
        ∨ ((w.extractLsb' 0 4).toNat = 2 ∧ s.cur.params.hasRouter = false)) →
      exec (.csrWr32 .cmd w) s = .next { s with cur := refusedWord (w.extractLsb' 0 4) s.cur })
    ∧ (s.cur.params.hasRouter = false →
        exec .routeTcp s = .next { s with cur := refusedWord 0x2 s.cur }
        ∧ exec .routeUdp s = .next { s with cur := refusedWord 0x2 s.cur })

/-- 44_control_and_bus.md R235: CLEAR with BUSY = 0, and that nothing else a host access or a completion does clears OVERRUN. -/
def Obligations.ClearZeroesStatusAndRecord : Prop :=
  (∀ (proto : BitVec 1) (s : State), s.cur.status.busy = false →
    exec (.clear proto) s = .next { s with cur := cleared s.cur } ∧ irq (cleared s.cur) = false)
  ∧ (∀ (i : Instr) (s t : State), exec i s = .next t → s.cur.status.overrun = true →
      t.cur.status.overrun = true ∨ (∃ proto, i = .clear proto)
        ∨ i = .csrWr32 .cmd 0x00000003#32 ∨ i = .csrWr32 .cmd 0x00000103#32)
  ∧ ∀ p : Pseg, (complete p).status.overrun = p.status.overrun

/-- 44_control_and_bus.md R236: every command but NOP, and every word that is no NOP; and that the pending operation completes
as if the write had not happened. -/
def Obligations.CommandWhileBusyIsDropped : Prop :=
  (∀ s : State, s.cur.status.busy = true →
    exec .decodeTcp s = .next { s with cur := overrun s.cur }
    ∧ exec .decodeUdp s = .next { s with cur := overrun s.cur }
    ∧ exec .routeTcp s = .next { s with cur := overrun s.cur }
    ∧ exec .routeUdp s = .next { s with cur := overrun s.cur }
    ∧ (∀ proto : BitVec 1, exec (.clear proto) s = .next { s with cur := overrun s.cur })
    ∧ ∀ w : Word, w ≠ 0x00000000#32 → w ≠ 0x00000100#32 →
        exec (.csrWr32 .cmd w) s = .next { s with cur := overrun s.cur })
  ∧ ∀ p : Pseg, complete (overrun p) = overrun (complete p)

/-- 30_encoding.md R103: "exactly six word patterns name an operation", and every other word is ILLEGAL. -/
def Obligations.CommandWordsDecodeExactly : Prop :=
  ∀ (c : Params) (w : Word),
    (decodeCmd c w = .nop ↔ w = 0x00000000#32 ∨ w = 0x00000100#32)
    ∧ (decodeCmd c w = .decodeTcp ↔ w = 0x00000001#32)
    ∧ (decodeCmd c w = .decodeUdp ↔ w = 0x00000101#32)
    ∧ (decodeCmd c w = .routeTcp ↔ w = 0x00000002#32 ∧ c.hasRouter = true)
    ∧ (decodeCmd c w = .routeUdp ↔ w = 0x00000102#32 ∧ c.hasRouter = true)
    ∧ (decodeCmd c w = .clear ↔ w = 0x00000003#32 ∨ w = 0x00000103#32)
    ∧ (decodeCmd c w = .illegal ↔
        w ≠ 0x00000000#32 ∧ w ≠ 0x00000100#32 ∧ w ≠ 0x00000001#32 ∧ w ≠ 0x00000101#32
          ∧ w ≠ 0x00000003#32 ∧ w ≠ 0x00000103#32
          ∧ ¬ (c.hasRouter = true ∧ (w = 0x00000002#32 ∨ w = 0x00000102#32)))

/-- A CMD write of a word that names a command is that command (44_control_and_bus.md R230; log entry 5). -/
def Obligations.CommandIsItsCmdWrite : Prop :=
  ∀ s : State,
    exec (.csrWr32 .cmd 0x00000000#32) s = exec (.nop 0) s
    ∧ exec (.csrWr32 .cmd 0x00000100#32) s = exec (.nop 1) s
    ∧ exec (.csrWr32 .cmd 0x00000001#32) s = exec .decodeTcp s
    ∧ exec (.csrWr32 .cmd 0x00000101#32) s = exec .decodeUdp s
    ∧ exec (.csrWr32 .cmd 0x00000002#32) s = exec .routeTcp s
    ∧ exec (.csrWr32 .cmd 0x00000102#32) s = exec .routeUdp s
    ∧ exec (.csrWr32 .cmd 0x00000003#32) s = exec (.clear 0) s
    ∧ exec (.csrWr32 .cmd 0x00000103#32) s = exec (.clear 1) s

/-! ### The four bus operations -/

/-- 44_control_and_bus.md R243 with 10_state.md R34, R37, R39 and the record registers of R38: a read completes in every state,
returns the field's value with every bit above it 0, and changes nothing. The value joins `observed`, the model's own record of what reads return (log
entry 11). -/
def Obligations.RegisterReadReturnsItsValue : Prop :=
  ∀ (r : Csr) (s : State), ∃ v : Word,
    exec (.csrRd32 r) s = .next { s with observed := s.observed ++ [v] }
    ∧ v.toNat = (match r with
      | .caps => (csrValue s.cur .caps).toNat
      | .cmd => 0
      | .status => (csrValue s.cur .status).toNat
      | .bufsize => s.cur.params.bufBytes
      | .ctrl => s.cur.irqEn.toNat
      | .len => s.cur.len.toNat
      | .srcPort => s.cur.record.srcPort.toNat
      | .dstPort => s.cur.record.dstPort.toNat
      | .seq => s.cur.record.seq.toNat
      | .ack => s.cur.record.ack.toNat
      | .doff => s.cur.record.doff.toNat
      | .rsvd => s.cur.record.rsvd.toNat
      | .flags => s.cur.record.flags.toNat
      | .window => s.cur.record.window.toNat
      | .checksum => s.cur.record.checksum.toNat
      | .urgent => s.cur.record.urgent.toNat
      | .udpLen => s.cur.record.udpLen.toNat
      | .segOff => s.cur.record.segOff.toNat
      | .segLen => s.cur.record.segLen.toNat
      | .optOff => s.cur.record.optOff.toNat
      | .optLen => s.cur.record.optLen.toNat
      | .payOff => s.cur.record.payOff.toNat
      | .payLen => s.cur.record.payLen.toNat)

/-- The STATUS layout of 10_state.md R36, bit by bit. -/
def Obligations.StatusWordLayout : Prop :=
  ∀ p : Pseg,
    let v := csrValue p .status
    v.getLsbD 0 = p.status.busy ∧ v.getLsbD 1 = p.status.done ∧ v.getLsbD 2 = p.status.err
    ∧ v.getLsbD 3 = p.status.valid ∧ v.getLsbD 4 = p.status.overrun
    ∧ v.extractLsb' 5 3 = 0 ∧ v.extractLsb' 8 8 = codeValue p.status.code
    ∧ v.extractLsb' 16 4 = p.status.lastOp ∧ v.extractLsb' 20 1 = p.status.lastProto
    ∧ v.extractLsb' 21 11 = 0

/-- 10_state.md R33 and R35: the two constants, which neither a reset nor any access or completion changes. -/
def Obligations.CapsAndBufsizeAreConstants : Prop :=
  (∀ p : Pseg,
    (csrValue p .caps).getLsbD 0 = p.params.hasRouter
    ∧ (csrValue p .caps).getLsbD 1 = (p.params.hasRouter && p.params.routeLenFromIp)
    ∧ (csrValue p .caps).extractLsb' 2 30 = 0
    ∧ (csrValue p .bufsize).toNat = p.params.bufBytes
    ∧ 64 ≤ p.params.bufBytes ∧ p.params.bufBytes ≤ 65536)
  ∧ (∀ (p : Pseg) (r : Csr), (r = .caps ∨ r = .bufsize) →
      csrValue (resetPseg p) r = csrValue p r ∧ csrValue (complete p) r = csrValue p r)
  ∧ ∀ (i : Instr) (s t : State) (r : Csr), (r = .caps ∨ r = .bufsize) → exec i s = .next t →
      csrValue t.cur r = csrValue s.cur r

/-- 44_control_and_bus.md R244: CMD, CTRL and LEN; the read-only registers ignore the write; and a LEN write leaves the
pending completion as it was. It holds whatever BUSY is. -/
def Obligations.RegisterWriteStoresOrIsIgnored : Prop :=
  (∀ (s : State) (w : Word),
    exec (.csrWr32 .cmd w) s = .next { s with cur := issueCmd (decodeCmd s.cur.params w) w s.cur }
    ∧ exec (.csrWr32 .ctrl w) s = .next { s with cur := { s.cur with irqEn := w.getLsbD 0 } }
    ∧ exec (.csrWr32 .len w) s = .next { s with cur := { s.cur with len := w } }
    ∧ ∀ r : Csr, r ≠ .cmd → r ≠ .ctrl → r ≠ .len → exec (.csrWr32 r w) s = .next s)
  ∧ ∀ (p : Pseg) (w : Word) (e : Bool),
      complete { p with len := w, irqEn := e } = { complete p with len := w, irqEn := e }

/-- What CTRL and LEN read after a write (10_state.md R37, R39); the value read joins `observed` (log entry 11). -/
def Obligations.CtrlAndLenReadBack : Prop :=
  ∀ (s t u : State) (w : Word),
    (exec (.csrWr32 .len w) s = .next t → exec (.csrRd32 .len) t = .next u → u.observed = s.observed ++ [w])
    ∧ (exec (.csrWr32 .ctrl w) s = .next t → exec (.csrRd32 .ctrl) t = .next u →
        ∃ v : Word, u.observed = s.observed ++ [v] ∧ v.toNat = w.toNat % 2)

/-- 44_control_and_bus.md R240: the byte, zero-extended, or the model fault; in any state, with no other effect. The value joins
`observed` (log entry 11). That the fault is a next state is the model's choice (log entry 6), and that it
changes nothing but the mark and returns no value is deduced (log entry 8). -/
def Obligations.IbufReadReturnsTheByte : Prop :=
  ∀ (s : State) (off : BitVec 16), off.toNat < s.cur.params.bufBytes →
    (∀ b : Byte, Memory.read s.cur.ibuf off.toNat = some b →
      exec (.ibufRd8 off) s = .next { s with observed := s.observed ++ [BitVec.ofNat 32 b.toNat] })
    ∧ (Memory.read s.cur.ibuf off.toNat = none →
      exec (.ibufRd8 off) s = .next { s with cur := marked (.uninitialisedRead off.toNat) s.cur })

/-- 44_control_and_bus.md R241: with BUSY = 0 the byte is stored, every other cell reads as before and nothing else changes;
with BUSY = 1 the model fault; the byte is bits 7:0 of the data word. That the fault is a next state is the model's choice (log
entry 6), and that it leaves the cell and everything but the mark as before is deduced (log entry 8). -/
def Obligations.IbufWriteStoresTheByte : Prop :=
  (∀ (s : State) (off : BitVec 16) (b : Byte), off.toNat < s.cur.params.bufBytes →
    (s.cur.status.busy = false →
      ∃ m : List Host.Cell,
        exec (.ibufWr8 off b) s = .next { s with cur := { s.cur with ibuf := m } }
        ∧ Memory.read m off.toNat = some b
        ∧ ∀ a : Nat, a ≠ off.toNat → Memory.read m a = Memory.read s.cur.ibuf a)
    ∧ (s.cur.status.busy = true →
      exec (.ibufWr8 off b) s = .next { s with cur := marked (.bufferWriteWhileBusy off.toNat) s.cur }))
  ∧ ∀ (c : Params) (off : BitVec 16) (w : Word), off.toNat < c.bufBytes →
      decode c (ibufRequest 1 off) w = .ok (.ibufWr8 off (w.extractLsb' 0 8))

/-- The model's choice of log entry 7: an IBUF instruction at or above BUF_BYTES, which no request decodes to, marks the
bus error of its address and does nothing else (as log entries 6 and 8 have a fault do). -/
def Obligations.BufferOffsetBeyondCapacity : Prop :=
  ∀ (s : State) (off : BitVec 16) (b : Byte), s.cur.params.bufBytes ≤ off.toNat →
    exec (.ibufRd8 off) s = .next { s with cur := marked (.busError (BitVec.ofNat 17 (65536 + off.toNat))) s.cur }
    ∧ exec (.ibufWr8 off b) s = .next { s with cur := marked (.busError (BitVec.ofNat 17 (65536 + off.toNat))) s.cur }

/-! ### Encoding -/

/-- 30_encoding.md R106: what each request word asks for, every word falling under one of the three. -/
def Obligations.RequestsDecodeAsAdmitted : Prop :=
  ∀ (c : Params) (q : BitVec 20),
    (IsCsrRequest q → ∃ r : Csr, csrOffset r = q.extractLsb' 0 16
      ∧ decodeBus c q = if q.extractLsb' 19 1 = 0 then .csrRd32 r else .csrWr32 r)
    ∧ (IsIbufRequest c q →
      decodeBus c q = if q.extractLsb' 19 1 = 0 then .ibufRd8 (q.extractLsb' 0 16) else .ibufWr8 (q.extractLsb' 0 16))
    ∧ (¬ IsCsrRequest q → ¬ IsIbufRequest c q → decodeBus c q = .busError (q.extractLsb' 0 17))

/-- Decode of encode, for every well-formed instruction of a PSEG with any parameters. What the instructions are is log
entry 5. -/
def Obligations.DecodeOfEncode : Prop :=
  ∀ (c : Params) (i : Instr), i.WellFormed c = true → decode c (encode i).1 (encode i).2 = .ok i

/-- Encode of decode: a request that is an instruction is that instruction's request, its instruction is well-formed, and of
the data word only what 30_encoding.md R105 ignores is lost. What the instructions are is log entry 5. -/
def Obligations.EncodeOfDecode : Prop :=
  ∀ (c : Params) (q : BitVec 20) (w : Word) (i : Instr), decode c q w = .ok i →
    i.WellFormed c = true ∧ (encode i).1 = q
    ∧ (match i with
      | .csrRd32 _ => True
      | .ibufRd8 _ => True
      | .ibufWr8 _ b => b = w.extractLsb' 0 8
      | _ => (encode i).2 = w)

/-- Words written out from the encodings of 30_encoding.md R100, R105 and spec/opcode_table.json. That a 24-bit table word is a
request whose data word is 0, and that a CMD write of an illegal word is `csrWr32 .cmd`, are the model's choices (log entry 5);
so are the parameters the words are decoded under (log entry 4). -/
def Obligations.TableWordsDecode : Prop :=
  decodeTableWord 32 0x00000000 = some (.nop 0)
  ∧ decodeTableWord 32 0x00000101 = some .decodeUdp
  ∧ decodeTableWord 32 0x00000002 = some .routeTcp
  ∧ decodeTableWord 32 0x00000103 = some (.clear 1)
  ∧ decodeTableWord 32 0x00000010 = some (.csrWr32 .cmd 0x10)
  ∧ decodeTableWord 24 0x40060 = some (.csrRd32 .payLen)
  ∧ decodeTableWord 24 0xC0014 = some (.csrWr32 .len 0)
  ∧ decodeTableWord 24 0x100FF = some (.ibufRd8 255)
  ∧ decodeTableWord 24 0x90005 = some (.ibufWr8 5 0)
  ∧ decodeTableWord 24 0x40018 = none

/-! ### Steps -/

/-- A step whose turn is an access that decodes runs exactly that instruction on the addressed instance, with the turn
taken off the schedule. The schedule and the addressed instance are the model's choice (log entries 1 and 12). -/
def Obligations.StepRunsTheDecodedInstruction : Prop :=
  ∀ (s t : State) (k : Nat) (q : BitVec 20) (w : Word) (ts : List Turn) (i : Instr),
    s.turns = .access k q w :: ts → anyFault s = none → select k s = some t →
    decode t.cur.params q w = .ok i →
    step s = exec i { t with turns := ts }

/-- A step whose turn is an access that decodes to nothing: 44_control_and_bus.md R242. Only the FAULT mark changes, and a
read returns nothing; the mark stops every later turn but a reset. That the mark is a next state, and the stop the step after it, is the
model's choice (log entry 6). -/
def Obligations.UnadmittedAccessIsBusError : Prop :=
  ∀ (s t : State) (k : Nat) (q : BitVec 20) (w : Word) (ts : List Turn),
    s.turns = .access k q w :: ts → anyFault s = none → select k s = some t →
    ¬ IsCsrRequest q → ¬ IsIbufRequest t.cur.params q →
    step s = .next { t with turns := ts, cur := marked (.busError (q.extractLsb' 0 17)) t.cur }
    ∧ (ts.head? ≠ some .reset →
        step { t with turns := ts, cur := marked (.busError (q.extractLsb' 0 17)) t.cur }
          = .fault (.busError (q.extractLsb' 0 17)))

/-- A step whose turn is the engine's is the completion of the addressed instance and nothing else (20_memory.md R90; the schedule
is the model's choice, log entry 1). -/
def Obligations.EngineTurnCompletes : Prop :=
  ∀ (s t : State) (k : Nat) (ts : List Turn),
    s.turns = .engine k :: ts → anyFault s = none → select k s = some t →
    step s = .next { t with turns := ts, cur := complete t.cur }

/-- 70_reset_and_hazards.md R290 and R291: from any state, faulted or busy, every instance takes the values of 10_state.md R54,
its constants kept. That a reset keeps the rest of the schedule and what the host has observed is the model's choice (log
entries 1, 11 and 12). -/
def Obligations.ResetPutsEveryInstanceToItsResetValues : Prop :=
  ∀ (s : State) (ts : List Turn), s.turns = .reset :: ts →
    ∃ t : State, step s = .next t ∧ t.turns = ts ∧ t.observed = s.observed
      ∧ (instances t).map (fun p => p.params) = (instances s).map (fun p => p.params)
      ∧ ∀ p ∈ instances t,
          (csrValue p .status).toNat = 0 ∧ (csrValue p .ctrl).toNat = 0 ∧ (csrValue p .len).toNat = 0
          ∧ (∀ r ∈ recordCsrs, (csrValue p r).toNat = 0)
          ∧ (∀ a : Nat, Memory.read p.ibuf a = none)
          ∧ p.latOp = 0 ∧ p.latProto = 0 ∧ p.latLen = 0
          ∧ p.status.busy = false ∧ p.fault = none ∧ irq p = false ∧ complete p = p

/-- The machine right after reset (10_state.md R54, 70_reset_and_hazards.md R292): every register but the two constants reads 0,
and a CMD write is accepted. That there is one instance, and its parameters, are the model's choice (log entry 4). -/
def Obligations.ResetStateReadsZero : Prop :=
  (∀ r : Csr, r ≠ .caps → r ≠ .bufsize → csrValue State.reset.cur r = 0)
  ∧ csrValue State.reset.cur .caps = 3 ∧ csrValue State.reset.cur .bufsize = 256
  ∧ (∀ a : Nat, Memory.read State.reset.cur.ibuf a = none)
  ∧ irq State.reset.cur = false ∧ State.reset.cur.fault = none
  ∧ exec .decodeTcp State.reset = .next { State.reset with cur := accepted 0x1 0 State.reset.cur }

/-! ### The decoders -/

/-- 20_memory.md R70: the engine's multi-byte reads are big-endian. -/
def Obligations.EngineReadsBigEndian : Prop :=
  ∀ (p : Pseg) (a : Nat) (x : Nat → Byte),
    (Holds p a 2 x → ∃ h : Half, be16 p a = .ok h ∧ h.toNat = (x 0).toNat * 256 + (x 1).toNat)
    ∧ (Holds p a 4 x → ∃ v : Word, be32 p a = .ok v
        ∧ v.toNat = (x 0).toNat * 2 ^ 24 + (x 1).toNat * 2 ^ 16 + (x 2).toNat * 2 ^ 8 + (x 3).toNat)

/-- 40_tcp_decoder.md R141, with the record of R147: `TcpBody` at any offset, of any length. Below 20 bytes no byte need be there. -/
def Obligations.TcpBodyFollowsItsSteps : Prop :=
  ∀ (p : Pseg) (b len : Nat) (x : Nat → Byte),
    (20 ≤ len → Holds p b 20 x) → tcpBody p b len = tcpOutcome x b len

/-- 41_udp_decoder.md R161, with the record of R166. -/
def Obligations.UdpBodyFollowsItsSteps : Prop :=
  ∀ (p : Pseg) (b len : Nat) (x : Nat → Byte),
    (8 ≤ len → Holds p b 8 x) → udpBody p b len = udpOutcome x b len

/-- 43_frame_router.md R202. Only the bytes whose step is reached need be written: a frame that fails at a step ends in that
step's code whatever the later envelope cells hold, or do not hold. -/
def Obligations.RouteBodyFollowsItsSteps : Prop :=
  ∀ (p : Pseg) (len : Nat) (want : Byte) (x : Nat → Byte),
    (∀ a : Nat, RouteReaches x len want.toNat a → Memory.read p.ibuf a = some (x a)) →
    routeBody p len want = routeOutcome p.params.routeLenFromIp x len want.toNat

/-- The first unwritten header byte is the one the bodies fault at (40_tcp_decoder.md R142, 41_udp_decoder.md R162), whatever the
later checks would give; and the first unwritten envelope byte that a step of it reaches is the one the router faults
at, for each of the eight bytes in the order of its steps (43_frame_router.md R202, R211). -/
def Obligations.UnwrittenHeaderByteFaults : Prop :=
  (∀ (p : Pseg) (b len j : Nat) (x : Nat → Byte),
    Holds p b j x → Memory.read p.ibuf (b + j) = none →
    (20 ≤ len → j < 20 → tcpBody p b len = .error (.raise (.uninitialisedRead (b + j))))
    ∧ (8 ≤ len → j < 8 → udpBody p b len = .error (.raise (.uninitialisedRead (b + j)))))
  ∧ ∀ (p : Pseg) (len : Nat) (want : Byte) (x : Nat → Byte) (earlier later : List Nat) (a : Nat),
    envelopeOrder = earlier ++ a :: later → (∀ c ∈ earlier, Memory.read p.ibuf c = some (x c)) →
    RouteReaches x len want.toNat a → Memory.read p.ibuf a = none →
    routeBody p len want = .error (.raise (.uninitialisedRead a))

/-- The completion of DECODE.TCP and of DECODE.UDP (40_tcp_decoder.md R140, 41_udp_decoder.md R160) on an input in the buffer:
the outcome of the body at offset 0, and nothing but STATUS and the record changes. -/
def Obligations.DecodeCompletes : Prop :=
  ∀ (p : Pseg) (x : Nat → Byte),
    p.status.busy = true → p.fault = none → p.latOp = 0x1 → p.latLen.toNat ≤ p.params.bufBytes →
    (p.latProto = 0 → (20 ≤ p.latLen.toNat → Holds p 0 20 x) →
      complete p = settled (tcpOutcome x 0 p.latLen.toNat) p)
    ∧ (p.latProto = 1 → (8 ≤ p.latLen.toNat → Holds p 0 8 x) →
      complete p = settled (udpOutcome x 0 p.latLen.toNat) p)

/-- The completion of ROUTE.TCP and of ROUTE.UDP (43_frame_router.md R200, R201, R210) on a frame in the buffer: the router's code,
or the outcome of the selected body on the inner segment, with absolute offsets. Only the envelope bytes whose step is
reached need be written. -/
def Obligations.RouteCompletes : Prop :=
  ∀ (p : Pseg) (x y : Nat → Byte) (want : Byte),
    p.status.busy = true → p.fault = none → p.latOp = 0x2 → p.latLen.toNat ≤ p.params.bufBytes →
    want = (if p.latProto = 0 then 6 else 17) →
    (∀ a : Nat, RouteReaches x p.latLen.toNat want.toNat a → Memory.read p.ibuf a = some (x a)) →
    (∀ c, routeOutcome p.params.routeLenFromIp x p.latLen.toNat want.toNat = .error c →
      complete p = settled (.error c) p)
    ∧ ∀ off len, routeOutcome p.params.routeLenFromIp x p.latLen.toNat want.toNat = .ok (off, len) →
      (p.latProto = 0 → (20 ≤ len → Holds p off 20 y) → complete p = settled (tcpOutcome y off len) p)
      ∧ (p.latProto = 1 → (8 ≤ len → Holds p off 8 y) → complete p = settled (udpOutcome y off len) p)

/-- 60_exceptions.md R261: LEN_OUT_OF_RANGE comes first in all four operations, whatever IBUF holds. -/
def Obligations.LengthBeyondBufferIsRefused : Prop :=
  ∀ p : Pseg, p.status.busy = true → p.fault = none → (p.latOp = 0x1 ∨ p.latOp = 0x2) →
    p.params.bufBytes < p.latLen.toNat → complete p = failed .lenOutOfRange p

/-- 60_exceptions.md R264 and 44_control_and_bus.md R232: the engine's step is one of nothing, `finish`, `commit` and a model
fault, it happens only while BUSY = 1 with the mark clear, and it leaves everything else as it was. That the model fault leaves everything but the mark, BUSY too, as it was is deduced (log
entry 8). -/
def Obligations.CompletionWritesOnlyItsOutcome : Prop :=
  ∀ p : Pseg,
    ((p.status.busy = false ∨ p.fault ≠ none) → complete p = p)
    ∧ (p.status.busy = true → p.fault = none → (p.latOp = 0x1 ∨ p.latOp = 0x2) →
        (∃ c, c ≠ .ok ∧ complete p = failed c p) ∨ (∃ r, complete p = succeeded r p)
          ∨ ∃ a, complete p = marked (.uninitialisedRead a) p)

/-- 43_frame_router.md R208: the inner segment lies inside the frame, and its offset is 34 to 74. -/
def Obligations.RoutedSegmentLiesInTheFrame : Prop :=
  ∀ (p : Pseg) (len : Nat) (want : Byte) (off n : Nat), routeBody p len want = .ok (off, n) →
    off + n ≤ len ∧ 34 ≤ off ∧ off ≤ 74

/-- 20_memory.md R83, 00_scope.md R15: a body faults only at an unwritten cell, and every cell it reads lies inside the latched
input and inside IBUF. -/
def Obligations.EngineReadsInsideTheInput : Prop :=
  ∀ (p : Pseg) (a : Nat), engineBody p = some (.error (.raise (.uninitialisedRead a))) →
    a < p.latLen.toNat ∧ a < p.params.bufBytes ∧ Memory.read p.ibuf a = none

/-- 00_scope.md R7, 20_memory.md R83: what the engine reports is a function of the parameters, the latches and the IBUF bytes
below LAT_LEN alone: two instances that agree on those and differ in anything else give the same outcome. -/
def Obligations.OutcomeDependsOnlyOnTheInput : Prop :=
  ∀ p q : Pseg,
    p.params = q.params → p.latOp = q.latOp → p.latProto = q.latProto → p.latLen = q.latLen →
    (∀ a : Nat, a < p.latLen.toNat → Memory.read p.ibuf a = Memory.read q.ibuf a) →
    engineBody p = engineBody q

/-- 40_tcp_decoder.md R149, 41_udp_decoder.md, 43_frame_router.md R211, R212: only the header bytes matter, and of the envelope
only the eight bytes the router reads. -/
def Obligations.OnlyHeaderBytesMatter : Prop :=
  ∀ p q : Pseg, p.params = q.params →
    (∀ b len : Nat, (∀ j < 20, Memory.read p.ibuf (b + j) = Memory.read q.ibuf (b + j)) →
      tcpBody p b len = tcpBody q b len)
    ∧ (∀ b len : Nat, (∀ j < 8, Memory.read p.ibuf (b + j) = Memory.read q.ibuf (b + j)) →
      udpBody p b len = udpBody q b len)
    ∧ ∀ (len : Nat) (want : Byte),
      (∀ a ∈ [12, 13, 14, 16, 17, 20, 21, 23], Memory.read p.ibuf a = Memory.read q.ibuf a) →
      routeBody p len want = routeBody q len want

/-- 00_scope.md R7, 60_exceptions.md R267: an accepted command's outcome does not depend on what came before it. -/
def Obligations.OutcomeForgetsEarlierOperations : Prop :=
  ∀ (p q : Pseg) (w : Word),
    p.params = q.params → p.ibuf = q.ibuf → p.len = q.len →
    p.status.busy = false → q.status.busy = false → p.fault = none → q.fault = none →
    (w = 0x00000001#32 ∨ w = 0x00000101#32 ∨ (p.params.hasRouter = true ∧ (w = 0x00000002#32 ∨ w = 0x00000102#32))) →
    (complete (writeCmd w p)).record = (complete (writeCmd w q)).record
    ∧ (complete (writeCmd w p)).status.code = (complete (writeCmd w q)).status.code
    ∧ (complete (writeCmd w p)).status.valid = (complete (writeCmd w q)).status.valid
    ∧ (complete (writeCmd w p)).fault = (complete (writeCmd w q)).fault

/-! ### Status, interrupt, faults -/

/-- 60_exceptions.md R260: the numbers of the status codes, no two the same. -/
def Obligations.StatusCodeNumbers : Prop :=
  [StatusCode.ok, .truncated, .invalidHeaderLength, .reservedBitsSet, .invalidLength, .lengthMismatch, .illegalCommand,
    .lenOutOfRange, .routeFrameTruncated, .routeNotIpv4, .routeBadIpHeader, .routeProtocolMismatch,
    .routeFragment].map (fun c => (codeValue c).toNat)
    = [0x00, 0x01, 0x02, 0x03, 0x04, 0x05, 0x10, 0x11, 0x20, 0x21, 0x22, 0x23, 0x24]
  ∧ ∀ c d : StatusCode, codeValue c = codeValue d → c = d

/-- 60_exceptions.md R268: the level, what lowers it, and that every completion, success or failure, raises it when enabled. -/
def Obligations.IrqIsDoneAndEnabled : Prop :=
  ∀ p : Pseg,
    irq p = (p.status.done && p.irqEn)
    ∧ (∀ op proto, irq (accepted op proto p) = false) ∧ irq (cleared p) = false ∧ irq (resetPseg p) = false
    ∧ (∀ c, irq (failed c p) = p.irqEn) ∧ (∀ r, irq (succeeded r p) = p.irqEn)
    ∧ (∀ op, irq (refusedWord op p) = p.irqEn)
    ∧ irq { p with irqEn := false } = false ∧ irq { p with irqEn := true } = p.status.done

/-- 44_control_and_bus.md R238, in every state of the invariant: what the host reads while BUSY = 1. -/
def Obligations.BusyWindowReads : Prop :=
  ∀ p : Pseg, PsegInv p → p.status.busy = true →
    (∀ r ∈ recordCsrs, csrValue p r = 0)
    ∧ (csrValue p .status).toNat
        = p.latProto.toNat * 2 ^ 20 + p.latOp.toNat * 2 ^ 16 + p.status.overrun.toNat * 16 + 1

/-- 60_exceptions.md R266, in every state of the invariant: a failed completion leaves every record register 0 and VALID 0. -/
def Obligations.FailureLeavesNoRecord : Prop :=
  ∀ p : Pseg, PsegInv p → (complete p).status.err = true →
    (complete p).status.valid = false ∧ ∀ r ∈ recordCsrs, csrValue (complete p) r = 0

/-- 60_exceptions.md R270, 00_scope.md R17(c) (log entry 6): once a model fault is recorded the engine takes no step, every turn
but a reset stops the machine with that fault, and only a reset leaves a state without it. -/
def Obligations.FaultStopsTheRun : Prop :=
  (∀ p : Pseg, p.fault ≠ none → complete p = p)
  ∧ ∀ (s : State) (f : Fault), anyFault s = some f →
      (s.turns.head? ≠ some .reset → step s = .fault f)
      ∧ ∀ t : State, step s = .next t → s.turns.head? = some .reset ∧ anyFault t = none

/-- 60_exceptions.md R270: a mark appears only from one of the three causes, in the instance the turn addresses, and nothing else of
that instance changes and no value is returned (log entry 8): an IBUF read of an unwritten cell or a completion that reads one, an IBUF write while
BUSY = 1, an access that is not admitted. With an empty schedule the completion is one still owed (log entry 3); that
the mark is a next state is log entry 6. -/
def Obligations.FaultsHaveTheirCauses : Prop :=
  ∀ (s t : State) (f : Fault), anyFault s = none → step s = .next t → anyFault t = some f →
    ∃ (k : Nat) (p : Pseg), (instances s)[k]? = some p ∧ (instances t)[k]? = some (marked f p)
      ∧ t.observed = s.observed ∧
      match f with
      | .uninitialisedRead off =>
          off < p.params.bufBytes ∧ Memory.read p.ibuf off = none
          ∧ ((∃ q w ts, s.turns = .access k q w :: ts ∧ IsIbufRequest p.params q ∧ q.extractLsb' 19 1 = 0
                ∧ (q.extractLsb' 0 16).toNat = off)
            ∨ (((∃ ts, s.turns = .engine k :: ts) ∨ s.turns = []) ∧ p.status.busy = true
                ∧ engineBody p = some (.error (.raise f)) ∧ off < p.latLen.toNat))
      | .bufferWriteWhileBusy off =>
          p.status.busy = true
          ∧ ∃ q w ts, s.turns = .access k q w :: ts ∧ IsIbufRequest p.params q ∧ q.extractLsb' 19 1 = 1
              ∧ (q.extractLsb' 0 16).toNat = off
      | .busError addr =>
          ∃ q w ts, s.turns = .access k q w :: ts ∧ addr = q.extractLsb' 0 17
            ∧ ¬ IsCsrRequest q ∧ ¬ IsIbufRequest p.params q

/-! ### The whole machine -/

/-- Every step keeps the invariant, from every state that meets it: the STATUS relations of 10_state.md R36, the record relations
of R38, R46 to R48, 40_tcp_decoder.md R147 and 41_udp_decoder.md R166, the latches of R52, and the
canonical form and bound of IBUF. -/
def Obligations.StepKeepsTheInvariant : Prop :=
  ∀ s t : State, Inv s → step s = .next t → Inv t

/-- The machine right after reset, with any instances, meets the invariant. -/
def Obligations.ResetMeetsTheInvariant : Prop :=
  Inv State.reset ∧ ∀ (c : Params) (cs : List Params), Inv (State.resetOf c cs)

/-- No step changes an instance's parameters or the number of instances (00_scope.md R8 to R11, 10_state.md R33, R35). -/
def Obligations.ParametersNeverChange : Prop :=
  ∀ s t : State, step s = .next t →
    (instances t).map (fun p => p.params) = (instances s).map (fun p => p.params)

/-- 60_exceptions.md R275: a turn of instance `k` leaves every other instance as it was, and its effect on `k` and what it
returns (log entry 11) depend on instance `k` alone. -/
def Obligations.InstancesShareNothing : Prop :=
  (∀ (s t : State) (u : Turn) (ts : List Turn) (k : Nat),
    s.turns = u :: ts → addressee u = some k → step s = .next t →
    (instances t).length = (instances s).length
    ∧ ∀ j : Nat, j ≠ k → (instances t)[j]? = (instances s)[j]?)
  ∧ ∀ (s s' t : State) (u : Turn) (ts ts' : List Turn) (k : Nat),
    s.turns = u :: ts → s'.turns = u :: ts' → addressee u = some k →
    (instances s)[k]? = (instances s')[k]? → anyFault s' = none → step s = .next t →
    ∃ (t' : State) (d : List Word), step s' = .next t' ∧ (instances t')[k]? = (instances t)[k]?
      ∧ t.observed = s.observed ++ d ∧ t'.observed = s'.observed ++ d

/-- 70_reset_and_hazards.md R305, 60_exceptions.md R276 (log entry 3), in every state of the invariant: once the host has issued its
last access, each step completes one owed operation, or records a model fault. -/
def Obligations.OwedCompletionsHappen : Prop :=
  ∀ s : State, Inv s → s.turns = [] → anyFault s = none → 0 < busyCount s →
    ∃ t : State, step s = .next t ∧ t.turns = []
      ∧ (busyCount t + 1 = busyCount s ∨ ∃ a, anyFault t = some (.uninitialisedRead a))

/-- A run that has ended as 60_exceptions.md R276 says steps to the same state. That there is such a step, and that it changes
nothing, is the model's choice (log entry 3). -/
def Obligations.FinalStateIsStable : Prop := ∀ s : State, Final s → step s = .next s

/-- 20_memory.md R80, 60_exceptions.md R274: a platform address in the aperture of instance `k` and of no lower-numbered one reaches
instance `k`, at the address less PSEG_BASE[k]. That the lowest-numbered of overlapping apertures has the address is
the model's choice (log entry 18). -/
def Obligations.ApertureReachesItsInstance : Prop :=
  ∀ (s : State) (k : Nat) (p : Pseg) (addr : BitVec 17),
    (instances s)[k]? = some p →
    (∀ j q, (instances s)[j]? = some q → j < k →
      p.params.base + addr.toNat < q.params.base ∨ q.params.base + 2 ^ 17 ≤ p.params.base + addr.toNat) →
    apertureOf s (p.params.base + addr.toNat) = some (k, addr)

/-- 42_renderer.md R180, R183: rendering fails for no record whose option and payload bytes are written; a byte renders as
itself or as its escape with its two digits; and the bytes of a dump are joined with one space. -/
def Obligations.RenderingNeverFailsOnWrittenBytes : Prop :=
  (∀ (ecn : Bool) (p : Pseg),
    (∀ j < p.record.optLen.toNat, p.record.optOff.toNat + j < p.params.bufBytes
      ∧ Memory.read p.ibuf (p.record.optOff.toNat + j) ≠ none) →
    (∀ j < p.record.payLen.toNat, p.record.payOff.toNat + j < p.params.bufBytes
      ∧ Memory.read p.ibuf (p.record.payOff.toNat + j) ≠ none) →
    ∃ text : List Char, render ecn p = .ok text)
  ∧ (∀ v : Byte,
      (0x20 ≤ v.toNat ∧ v.toNat ≤ 0x7E → ∃ ch : Char, renderByte v = [ch] ∧ ch.toNat = v.toNat)
      ∧ (¬ (0x20 ≤ v.toNat ∧ v.toNat ≤ 0x7E) →
          renderByte v = ['0', 'x', digitOf (v.toNat / 16), digitOf (v.toNat % 16)]))
  ∧ renderBytes [] = []
  ∧ (∀ v : Byte, renderBytes [v] = renderByte v)
  ∧ ∀ (v w : Byte) (bs : List Byte), renderBytes (v :: w :: bs) = renderByte v ++ ' ' :: renderBytes (w :: bs)

/-- 42_renderer.md R181: unsigned decimal with no leading zeros, the checksum as four hexadecimal digits and the reserved bits
as one. -/
def Obligations.RenderedNumbersFollowTheirForms : Prop :=
  (∀ n : Nat,
    (∀ ch ∈ decimal n, 48 ≤ ch.toNat ∧ ch.toNat ≤ 57)
    ∧ (decimal n).foldl (fun acc ch => 10 * acc + (ch.toNat - 48)) 0 = n
    ∧ decimal n ≠ []
    ∧ ((decimal n).head? = some '0' → decimal n = ['0']))
  ∧ (∀ v : BitVec 16, hex4 v = ['0', 'x', digitOf (v.toNat / 4096), digitOf (v.toNat / 256 % 16),
      digitOf (v.toNat / 16 % 16), digitOf (v.toNat % 16)])
  ∧ ∀ v : BitVec 3, hex1 v = ['0', 'x', digitOf v.toNat]

/-- 42_renderer.md R182: the names of the set flags in the canonical order, joined by a comma and a space, in brackets; `[none]`
where none of them is set. -/
def Obligations.RenderedFlagsFollowTheOrder : Prop :=
  ∀ (ecn : Bool) (f : BitVec 9),
    let names := (flagOrder ecn).filterMap (fun x => if f.toNat / 2 ^ x.1 % 2 = 1 then some x.2 else none)
    renderFlags ecn f =
      if names = [] then ['[', 'n', 'o', 'n', 'e', ']'] else '[' :: List.intercalate [',', ' '] names ++ [']']

/-- 42_renderer.md R184: the lines of a TCP and of a UDP record, where the option and payload bytes are written. The
renderer stands beside the machine (log entry 14). -/
def Obligations.RenderedTextFollowsTheLayout : Prop :=
  ∀ (ecn : Bool) (p : Pseg) (opts pay : List Byte),
    opts.length = p.record.optLen.toNat → HoldsBytes p p.record.optOff.toNat opts →
    pay.length = p.record.payLen.toNat → HoldsBytes p p.record.payOff.toNat pay →
    (p.status.lastProto = 0 →
      render ecn p = .ok (lines
        ["TCP Segment".toList,
         "  Source Port: ".toList ++ decimal p.record.srcPort.toNat,
         "  Destination Port: ".toList ++ decimal p.record.dstPort.toNat,
         "  Sequence Number: ".toList ++ decimal p.record.seq.toNat,
         "  Acknowledgment Number: ".toList ++ decimal p.record.ack.toNat,
         "  Data Offset: ".toList ++ decimal p.record.doff.toNat,
         "  Reserved: ".toList ++ hex1 p.record.rsvd,
         "  Flags: ".toList ++ renderFlags ecn p.record.flags,
         "  Window Size: ".toList ++ decimal p.record.window.toNat,
         "  Checksum: ".toList ++ hex4 p.record.checksum,
         "  Urgent Pointer: ".toList ++ decimal p.record.urgent.toNat,
         "  Options: ".toList ++ decimal opts.length ++ " bytes".toList,
         "  Options Data: ".toList ++ renderBytes opts,
         "  Payload: ".toList ++ decimal pay.length ++ " bytes".toList,
         "  Payload Data: ".toList ++ renderBytes pay]))
    ∧ (p.status.lastProto = 1 →
      render ecn p = .ok (lines
        ["UDP Datagram".toList,
         "  Source Port: ".toList ++ decimal p.record.srcPort.toNat,
         "  Destination Port: ".toList ++ decimal p.record.dstPort.toNat,
         "  Length: ".toList ++ decimal p.record.udpLen.toNat,
         "  Checksum: ".toList ++ hex4 p.record.checksum,
         "  Payload: ".toList ++ decimal pay.length ++ " bytes".toList,
         "  Payload Data: ".toList ++ renderBytes pay]))
end

