-- ==== Sys2Proof/Laws/Bits.lean ====
section
/-! SUPPORT. The words of the model as numbers: bit fields and concatenations. -/

namespace Sys2Proof

/-- A concatenation as a number. -/
theorem toNat_append_mul {n m : Nat} (x : BitVec n) (y : BitVec m) :
    (x ++ y).toNat = x.toNat * 2 ^ m + y.toNat := by
  rw [BitVec.toNat_append, ← Nat.shiftLeft_add_eq_or_of_lt y.isLt, Nat.shiftLeft_eq]

theorem requestWord_toNat (we : BitVec 1) (size : BitVec 2) (addr : BitVec 17) :
    (requestWord we size addr).toNat = we.toNat * 2 ^ 19 + size.toNat * 2 ^ 17 + addr.toNat := by
  have h1 : (requestWord we size addr).toNat = (we ++ size).toNat * 2 ^ 17 + addr.toNat :=
    toNat_append_mul (we ++ size) addr
  rw [h1, toNat_append_mul we size]
  ring

theorem csrAddr_toNat (off : BitVec 16) : (0#1 ++ off : BitVec 17).toNat = off.toNat := by
  have : (0#1 ++ off : BitVec 17).toNat = (0#1).toNat * 2 ^ 16 + off.toNat := toNat_append_mul 0#1 off
  simpa using this

theorem ibufAddr_toNat (off : BitVec 16) : (1#1 ++ off : BitVec 17).toNat = 2 ^ 16 + off.toNat := by
  have : (1#1 ++ off : BitVec 17).toNat = (1#1).toNat * 2 ^ 16 + off.toNat := toNat_append_mul 1#1 off
  simpa using this

theorem commandWord_toNat (op : BitVec 4) (proto : BitVec 1) :
    (commandWord op proto).toNat = proto.toNat * 2 ^ 8 + op.toNat := by
  have h1 : (commandWord op proto).toNat = (0#23 ++ proto ++ 0#4).toNat * 2 ^ 4 + op.toNat :=
    toNat_append_mul (0#23 ++ proto ++ 0#4) op
  have h2 := toNat_append_mul (0#23 ++ proto) 0#4
  have h3 := toNat_append_mul 0#23 proto
  simp only [BitVec.toNat_ofNat] at h2 h3
  omega
theorem extract_toNat {n : Nat} (x : BitVec n) (lo len : Nat) :
    (x.extractLsb' lo len).toNat = x.toNat / 2 ^ lo % 2 ^ len := by
  simp [BitVec.extractLsb'_toNat, Nat.shiftRight_eq_div_pow]

theorem we_requestWord (we : BitVec 1) (size : BitVec 2) (addr : BitVec 17) :
    (requestWord we size addr).extractLsb' 19 1 = we := by
  apply BitVec.eq_of_toNat_eq
  rw [extract_toNat, requestWord_toNat]
  omega
theorem half_toNat (a b : Byte) : (a ++ b : Half).toNat = a.toNat * 256 + b.toNat :=
  toNat_append_mul a b
theorem word_toNat (a b c d : Byte) :
    (a ++ b ++ c ++ d : Word).toNat = a.toNat * 2 ^ 24 + b.toNat * 2 ^ 16 + c.toNat * 2 ^ 8 + d.toNat := by
  have h1 : (a ++ b ++ c ++ d : Word).toNat = (a ++ b ++ c).toNat * 2 ^ 8 + d.toNat :=
    toNat_append_mul (a ++ b ++ c) d
  rw [h1, toNat_append_mul (a ++ b) c, toNat_append_mul a b]
  ring

/-- STATUS as a number (10_state.md R36). -/
theorem statusWord_toNat (t : Machine.Status) :
    (Machine.statusWord t).toNat =
      t.lastProto.toNat * 2 ^ 20 + t.lastOp.toNat * 2 ^ 16 + (Machine.codeValue t.code).toNat * 2 ^ 8
        + t.overrun.toNat * 16 + t.valid.toNat * 8 + t.err.toNat * 4 + t.done.toNat * 2 + t.busy.toNat := by
  have h := toNat_append_mul (0#11 ++ t.lastProto ++ t.lastOp ++ Machine.codeValue t.code ++ 0#3
    ++ BitVec.ofBool t.overrun ++ BitVec.ofBool t.valid ++ BitVec.ofBool t.err ++ BitVec.ofBool t.done)
    (BitVec.ofBool t.busy)
  refine Eq.trans h ?_
  simp only [toNat_append_mul, BitVec.toNat_ofBool, BitVec.toNat_ofNat]
  ring

end Sys2Proof
end

