-- ==== Sys2Proof/Laws/State.lean ====
section
/-! SUPPORT. Each update of the state, field by field. -/

namespace Sys2Proof.Machine

@[simp] theorem raiseFault_params (f : Fault) (p : Pseg) : (raiseFault f p).params = p.params := rfl
@[simp] theorem raiseFault_status (f : Fault) (p : Pseg) : (raiseFault f p).status = p.status := rfl
@[simp] theorem raiseFault_irqEn (f : Fault) (p : Pseg) : (raiseFault f p).irqEn = p.irqEn := rfl
@[simp] theorem raiseFault_len (f : Fault) (p : Pseg) : (raiseFault f p).len = p.len := rfl
@[simp] theorem raiseFault_record (f : Fault) (p : Pseg) : (raiseFault f p).record = p.record := rfl
@[simp] theorem raiseFault_ibuf (f : Fault) (p : Pseg) : (raiseFault f p).ibuf = p.ibuf := rfl
@[simp] theorem raiseFault_latOp (f : Fault) (p : Pseg) : (raiseFault f p).latOp = p.latOp := rfl
@[simp] theorem raiseFault_latProto (f : Fault) (p : Pseg) : (raiseFault f p).latProto = p.latProto := rfl
@[simp] theorem raiseFault_latLen (f : Fault) (p : Pseg) : (raiseFault f p).latLen = p.latLen := rfl
@[simp] theorem raiseFault_fault (f : Fault) (p : Pseg) : (raiseFault f p).fault = some f := rfl

@[simp] theorem resetPseg_params (p : Pseg) : (resetPseg p).params = p.params := rfl
@[simp] theorem resetPseg_status (p : Pseg) : (resetPseg p).status = .zero := rfl
@[simp] theorem resetPseg_irqEn (p : Pseg) : (resetPseg p).irqEn = false := rfl
@[simp] theorem resetPseg_len (p : Pseg) : (resetPseg p).len = 0 := rfl
@[simp] theorem resetPseg_record (p : Pseg) : (resetPseg p).record = .zero := rfl
@[simp] theorem resetPseg_ibuf (p : Pseg) : (resetPseg p).ibuf = [] := rfl
@[simp] theorem resetPseg_latOp (p : Pseg) : (resetPseg p).latOp = 0 := rfl
@[simp] theorem resetPseg_latProto (p : Pseg) : (resetPseg p).latProto = 0 := rfl
@[simp] theorem resetPseg_latLen (p : Pseg) : (resetPseg p).latLen = 0 := rfl
@[simp] theorem resetPseg_fault (p : Pseg) : (resetPseg p).fault = none := rfl

@[simp] theorem acceptCmd_params (w : Word) (p : Pseg) : (acceptCmd w p).params = p.params := rfl
@[simp] theorem acceptCmd_status (w : Word) (p : Pseg) : (acceptCmd w p).status = p.status.accepted (w.extractLsb' 0 4) (w.extractLsb' 8 1) := rfl
@[simp] theorem acceptCmd_irqEn (w : Word) (p : Pseg) : (acceptCmd w p).irqEn = p.irqEn := rfl
@[simp] theorem acceptCmd_len (w : Word) (p : Pseg) : (acceptCmd w p).len = p.len := rfl
@[simp] theorem acceptCmd_record (w : Word) (p : Pseg) : (acceptCmd w p).record = .zero := rfl
@[simp] theorem acceptCmd_ibuf (w : Word) (p : Pseg) : (acceptCmd w p).ibuf = p.ibuf := rfl
@[simp] theorem acceptCmd_latOp (w : Word) (p : Pseg) : (acceptCmd w p).latOp = w.extractLsb' 0 4 := rfl
@[simp] theorem acceptCmd_latProto (w : Word) (p : Pseg) : (acceptCmd w p).latProto = w.extractLsb' 8 1 := rfl
@[simp] theorem acceptCmd_latLen (w : Word) (p : Pseg) : (acceptCmd w p).latLen = p.len := rfl
@[simp] theorem acceptCmd_fault (w : Word) (p : Pseg) : (acceptCmd w p).fault = p.fault := rfl

@[simp] theorem illegalCmd_params (w : Word) (p : Pseg) : (illegalCmd w p).params = p.params := rfl
@[simp] theorem illegalCmd_status (w : Word) (p : Pseg) : (illegalCmd w p).status = p.status.illegalWord (w.extractLsb' 0 4) := rfl
@[simp] theorem illegalCmd_irqEn (w : Word) (p : Pseg) : (illegalCmd w p).irqEn = p.irqEn := rfl
@[simp] theorem illegalCmd_len (w : Word) (p : Pseg) : (illegalCmd w p).len = p.len := rfl
@[simp] theorem illegalCmd_record (w : Word) (p : Pseg) : (illegalCmd w p).record = .zero := rfl
@[simp] theorem illegalCmd_ibuf (w : Word) (p : Pseg) : (illegalCmd w p).ibuf = p.ibuf := rfl
@[simp] theorem illegalCmd_latOp (w : Word) (p : Pseg) : (illegalCmd w p).latOp = p.latOp := rfl
@[simp] theorem illegalCmd_latProto (w : Word) (p : Pseg) : (illegalCmd w p).latProto = p.latProto := rfl
@[simp] theorem illegalCmd_latLen (w : Word) (p : Pseg) : (illegalCmd w p).latLen = p.latLen := rfl
@[simp] theorem illegalCmd_fault (w : Word) (p : Pseg) : (illegalCmd w p).fault = p.fault := rfl

@[simp] theorem clearCmd_params (p : Pseg) : (clearCmd p).params = p.params := rfl
@[simp] theorem clearCmd_status (p : Pseg) : (clearCmd p).status = .zero := rfl
@[simp] theorem clearCmd_irqEn (p : Pseg) : (clearCmd p).irqEn = p.irqEn := rfl
@[simp] theorem clearCmd_len (p : Pseg) : (clearCmd p).len = p.len := rfl
@[simp] theorem clearCmd_record (p : Pseg) : (clearCmd p).record = .zero := rfl
@[simp] theorem clearCmd_ibuf (p : Pseg) : (clearCmd p).ibuf = p.ibuf := rfl
@[simp] theorem clearCmd_latOp (p : Pseg) : (clearCmd p).latOp = p.latOp := rfl
@[simp] theorem clearCmd_latProto (p : Pseg) : (clearCmd p).latProto = p.latProto := rfl
@[simp] theorem clearCmd_latLen (p : Pseg) : (clearCmd p).latLen = p.latLen := rfl
@[simp] theorem clearCmd_fault (p : Pseg) : (clearCmd p).fault = p.fault := rfl

@[simp] theorem dropCmd_params (p : Pseg) : (dropCmd p).params = p.params := rfl
@[simp] theorem dropCmd_status (p : Pseg) : (dropCmd p).status = p.status.dropped := rfl
@[simp] theorem dropCmd_irqEn (p : Pseg) : (dropCmd p).irqEn = p.irqEn := rfl
@[simp] theorem dropCmd_len (p : Pseg) : (dropCmd p).len = p.len := rfl
@[simp] theorem dropCmd_record (p : Pseg) : (dropCmd p).record = p.record := rfl
@[simp] theorem dropCmd_ibuf (p : Pseg) : (dropCmd p).ibuf = p.ibuf := rfl
@[simp] theorem dropCmd_latOp (p : Pseg) : (dropCmd p).latOp = p.latOp := rfl
@[simp] theorem dropCmd_latProto (p : Pseg) : (dropCmd p).latProto = p.latProto := rfl
@[simp] theorem dropCmd_latLen (p : Pseg) : (dropCmd p).latLen = p.latLen := rfl
@[simp] theorem dropCmd_fault (p : Pseg) : (dropCmd p).fault = p.fault := rfl

@[simp] theorem finishOp_params (c : StatusCode) (p : Pseg) : (finishOp c p).params = p.params := rfl
@[simp] theorem finishOp_status (c : StatusCode) (p : Pseg) : (finishOp c p).status = p.status.failed c := rfl
@[simp] theorem finishOp_irqEn (c : StatusCode) (p : Pseg) : (finishOp c p).irqEn = p.irqEn := rfl
@[simp] theorem finishOp_len (c : StatusCode) (p : Pseg) : (finishOp c p).len = p.len := rfl
@[simp] theorem finishOp_record (c : StatusCode) (p : Pseg) : (finishOp c p).record = p.record := rfl
@[simp] theorem finishOp_ibuf (c : StatusCode) (p : Pseg) : (finishOp c p).ibuf = p.ibuf := rfl
@[simp] theorem finishOp_latOp (c : StatusCode) (p : Pseg) : (finishOp c p).latOp = p.latOp := rfl
@[simp] theorem finishOp_latProto (c : StatusCode) (p : Pseg) : (finishOp c p).latProto = p.latProto := rfl
@[simp] theorem finishOp_latLen (c : StatusCode) (p : Pseg) : (finishOp c p).latLen = p.latLen := rfl
@[simp] theorem finishOp_fault (c : StatusCode) (p : Pseg) : (finishOp c p).fault = p.fault := rfl

@[simp] theorem commitOp_params (r : Record) (p : Pseg) : (commitOp r p).params = p.params := rfl
@[simp] theorem commitOp_status (r : Record) (p : Pseg) : (commitOp r p).status = p.status.committed := rfl
@[simp] theorem commitOp_irqEn (r : Record) (p : Pseg) : (commitOp r p).irqEn = p.irqEn := rfl
@[simp] theorem commitOp_len (r : Record) (p : Pseg) : (commitOp r p).len = p.len := rfl
@[simp] theorem commitOp_record (r : Record) (p : Pseg) : (commitOp r p).record = r := rfl
@[simp] theorem commitOp_ibuf (r : Record) (p : Pseg) : (commitOp r p).ibuf = p.ibuf := rfl
@[simp] theorem commitOp_latOp (r : Record) (p : Pseg) : (commitOp r p).latOp = p.latOp := rfl
@[simp] theorem commitOp_latProto (r : Record) (p : Pseg) : (commitOp r p).latProto = p.latProto := rfl
@[simp] theorem commitOp_latLen (r : Record) (p : Pseg) : (commitOp r p).latLen = p.latLen := rfl
@[simp] theorem commitOp_fault (r : Record) (p : Pseg) : (commitOp r p).fault = p.fault := rfl

@[simp] theorem storeByte_params (a : Nat) (b : Byte) (p : Pseg) : (storeByte a b p).params = p.params := rfl
@[simp] theorem storeByte_status (a : Nat) (b : Byte) (p : Pseg) : (storeByte a b p).status = p.status := rfl
@[simp] theorem storeByte_irqEn (a : Nat) (b : Byte) (p : Pseg) : (storeByte a b p).irqEn = p.irqEn := rfl
@[simp] theorem storeByte_len (a : Nat) (b : Byte) (p : Pseg) : (storeByte a b p).len = p.len := rfl
@[simp] theorem storeByte_record (a : Nat) (b : Byte) (p : Pseg) : (storeByte a b p).record = p.record := rfl
@[simp] theorem storeByte_ibuf (a : Nat) (b : Byte) (p : Pseg) : (storeByte a b p).ibuf = Memory.write p.ibuf a b := rfl
@[simp] theorem storeByte_latOp (a : Nat) (b : Byte) (p : Pseg) : (storeByte a b p).latOp = p.latOp := rfl
@[simp] theorem storeByte_latProto (a : Nat) (b : Byte) (p : Pseg) : (storeByte a b p).latProto = p.latProto := rfl
@[simp] theorem storeByte_latLen (a : Nat) (b : Byte) (p : Pseg) : (storeByte a b p).latLen = p.latLen := rfl
@[simp] theorem storeByte_fault (a : Nat) (b : Byte) (p : Pseg) : (storeByte a b p).fault = p.fault := rfl

@[simp] theorem Status.accepted_busy (op : BitVec 4) (proto : BitVec 1) (t : Status) : (t.accepted op proto).busy = true := rfl
@[simp] theorem Status.accepted_done (op : BitVec 4) (proto : BitVec 1) (t : Status) : (t.accepted op proto).done = false := rfl
@[simp] theorem Status.accepted_err (op : BitVec 4) (proto : BitVec 1) (t : Status) : (t.accepted op proto).err = false := rfl
@[simp] theorem Status.accepted_valid (op : BitVec 4) (proto : BitVec 1) (t : Status) : (t.accepted op proto).valid = false := rfl
@[simp] theorem Status.accepted_overrun (op : BitVec 4) (proto : BitVec 1) (t : Status) : (t.accepted op proto).overrun = t.overrun := rfl
@[simp] theorem Status.accepted_code (op : BitVec 4) (proto : BitVec 1) (t : Status) : (t.accepted op proto).code = .ok := rfl
@[simp] theorem Status.accepted_lastOp (op : BitVec 4) (proto : BitVec 1) (t : Status) : (t.accepted op proto).lastOp = op := rfl
@[simp] theorem Status.accepted_lastProto (op : BitVec 4) (proto : BitVec 1) (t : Status) : (t.accepted op proto).lastProto = proto := rfl

@[simp] theorem Status.illegalWord_busy (op : BitVec 4) (t : Status) : (t.illegalWord op).busy = t.busy := rfl
@[simp] theorem Status.illegalWord_done (op : BitVec 4) (t : Status) : (t.illegalWord op).done = true := rfl
@[simp] theorem Status.illegalWord_err (op : BitVec 4) (t : Status) : (t.illegalWord op).err = true := rfl
@[simp] theorem Status.illegalWord_valid (op : BitVec 4) (t : Status) : (t.illegalWord op).valid = false := rfl
@[simp] theorem Status.illegalWord_overrun (op : BitVec 4) (t : Status) : (t.illegalWord op).overrun = t.overrun := rfl
@[simp] theorem Status.illegalWord_code (op : BitVec 4) (t : Status) : (t.illegalWord op).code = .illegalCommand := rfl
@[simp] theorem Status.illegalWord_lastOp (op : BitVec 4) (t : Status) : (t.illegalWord op).lastOp = op := rfl
@[simp] theorem Status.illegalWord_lastProto (op : BitVec 4) (t : Status) : (t.illegalWord op).lastProto = t.lastProto := rfl

@[simp] theorem Status.dropped_busy (t : Status) : (t.dropped).busy = t.busy := rfl
@[simp] theorem Status.dropped_done (t : Status) : (t.dropped).done = t.done := rfl
@[simp] theorem Status.dropped_err (t : Status) : (t.dropped).err = t.err := rfl
@[simp] theorem Status.dropped_valid (t : Status) : (t.dropped).valid = t.valid := rfl
@[simp] theorem Status.dropped_overrun (t : Status) : (t.dropped).overrun = true := rfl
@[simp] theorem Status.dropped_code (t : Status) : (t.dropped).code = t.code := rfl
@[simp] theorem Status.dropped_lastOp (t : Status) : (t.dropped).lastOp = t.lastOp := rfl
@[simp] theorem Status.dropped_lastProto (t : Status) : (t.dropped).lastProto = t.lastProto := rfl

@[simp] theorem Status.failed_busy (c : StatusCode) (t : Status) : (t.failed c).busy = false := rfl
@[simp] theorem Status.failed_done (c : StatusCode) (t : Status) : (t.failed c).done = true := rfl
@[simp] theorem Status.failed_err (c : StatusCode) (t : Status) : (t.failed c).err = true := rfl
@[simp] theorem Status.failed_valid (c : StatusCode) (t : Status) : (t.failed c).valid = false := rfl
@[simp] theorem Status.failed_overrun (c : StatusCode) (t : Status) : (t.failed c).overrun = t.overrun := rfl
@[simp] theorem Status.failed_code (c : StatusCode) (t : Status) : (t.failed c).code = c := rfl
@[simp] theorem Status.failed_lastOp (c : StatusCode) (t : Status) : (t.failed c).lastOp = t.lastOp := rfl
@[simp] theorem Status.failed_lastProto (c : StatusCode) (t : Status) : (t.failed c).lastProto = t.lastProto := rfl

@[simp] theorem Status.committed_busy (t : Status) : (t.committed).busy = false := rfl
@[simp] theorem Status.committed_done (t : Status) : (t.committed).done = true := rfl
@[simp] theorem Status.committed_err (t : Status) : (t.committed).err = false := rfl
@[simp] theorem Status.committed_valid (t : Status) : (t.committed).valid = true := rfl
@[simp] theorem Status.committed_overrun (t : Status) : (t.committed).overrun = t.overrun := rfl
@[simp] theorem Status.committed_code (t : Status) : (t.committed).code = .ok := rfl
@[simp] theorem Status.committed_lastOp (t : Status) : (t.committed).lastOp = t.lastOp := rfl
@[simp] theorem Status.committed_lastProto (t : Status) : (t.committed).lastProto = t.lastProto := rfl

@[simp] theorem onCur_before (f : Pseg → Pseg) (s : State) : (onCur f s).before = s.before := rfl
@[simp] theorem onCur_cur (f : Pseg → Pseg) (s : State) : (onCur f s).cur = f s.cur := rfl
@[simp] theorem onCur_after (f : Pseg → Pseg) (s : State) : (onCur f s).after = s.after := rfl
@[simp] theorem onCur_turns (f : Pseg → Pseg) (s : State) : (onCur f s).turns = s.turns := rfl
@[simp] theorem onCur_observed (f : Pseg → Pseg) (s : State) : (onCur f s).observed = s.observed := rfl

@[simp] theorem returnData_before (v : Word) (s : State) : (returnData v s).before = s.before := rfl
@[simp] theorem returnData_cur (v : Word) (s : State) : (returnData v s).cur = s.cur := rfl
@[simp] theorem returnData_after (v : Word) (s : State) : (returnData v s).after = s.after := rfl
@[simp] theorem returnData_turns (v : Word) (s : State) : (returnData v s).turns = s.turns := rfl
@[simp] theorem returnData_observed (v : Word) (s : State) : (returnData v s).observed = s.observed ++ [v] := rfl

@[simp] theorem resetAll_before (s : State) : (resetAll s).before = s.before.map resetPseg := rfl
@[simp] theorem resetAll_cur (s : State) : (resetAll s).cur = resetPseg s.cur := rfl
@[simp] theorem resetAll_after (s : State) : (resetAll s).after = s.after.map resetPseg := rfl
@[simp] theorem resetAll_turns (s : State) : (resetAll s).turns = s.turns := rfl
@[simp] theorem resetAll_observed (s : State) : (resetAll s).observed = s.observed := rfl

@[simp] theorem pushAccess_before (q : BitVec 20) (w : Word) (s : State) : (pushAccess q w s).before = s.before := rfl
@[simp] theorem pushAccess_cur (q : BitVec 20) (w : Word) (s : State) : (pushAccess q w s).cur = s.cur := rfl
@[simp] theorem pushAccess_after (q : BitVec 20) (w : Word) (s : State) : (pushAccess q w s).after = s.after := rfl
@[simp] theorem pushAccess_turns (q : BitVec 20) (w : Word) (s : State) : (pushAccess q w s).turns = .access s.before.length q w :: s.turns := rfl
@[simp] theorem pushAccess_observed (q : BitVec 20) (w : Word) (s : State) : (pushAccess q w s).observed = s.observed := rfl
@[simp] theorem Status.zero_busy : Status.zero.busy = false := rfl
@[simp] theorem Status.zero_done : Status.zero.done = false := rfl
@[simp] theorem Status.zero_err : Status.zero.err = false := rfl
@[simp] theorem Status.zero_valid : Status.zero.valid = false := rfl
@[simp] theorem Status.zero_overrun : Status.zero.overrun = false := rfl
@[simp] theorem Status.zero_code : Status.zero.code = .ok := rfl
@[simp] theorem Status.zero_lastOp : Status.zero.lastOp = 0 := rfl
@[simp] theorem Status.zero_lastProto : Status.zero.lastProto = 0 := rfl

end Sys2Proof.Machine
end

