-- ==== Sys2Proof/Laws/Ops.lean ====
section
/-! SUPPORT. What each shared operation can do, said once. -/

namespace Sys2Proof.Machine

/-! ### The engine's reads -/

theorem byteAt_ok_iff {p : Pseg} {a : Nat} {b : Byte} :
    byteAt p a = .ok b ↔ a < p.params.bufBytes ∧ Memory.read p.ibuf a = some b := by
  unfold byteAt
  split
  · simp only [reduceCtorEq, false_iff]
    omega
  · next h =>
    cases hr : Memory.read p.ibuf a <;> simp
    omega

theorem byteAt_error_iff {p : Pseg} {a : Nat} {e : Stop} :
    byteAt p a = .error e ↔
      e = .raise (.uninitialisedRead a) ∧ (p.params.bufBytes ≤ a ∨ Memory.read p.ibuf a = none) := by
  unfold byteAt
  split
  · next h => simp [h, eq_comm]
  · next h => cases hr : Memory.read p.ibuf a <;> simp [h, eq_comm]

theorem byteAt_of_read {p : Pseg} {a : Nat} {b : Byte} (h : Memory.read p.ibuf a = some b)
    (ha : a < p.params.bufBytes) : byteAt p a = .ok b := byteAt_ok_iff.mpr ⟨ha, h⟩

theorem be16_of_read {p : Pseg} {a : Nat} {b0 b1 : Byte} (h0 : byteAt p a = .ok b0)
    (h1 : byteAt p (a + 1) = .ok b1) : be16 p a = .ok (b0 ++ b1) := by
  simp [be16, h0, h1, bind, Except.bind]

theorem be32_of_read {p : Pseg} {a : Nat} {b0 b1 b2 b3 : Byte} (h0 : byteAt p a = .ok b0)
    (h1 : byteAt p (a + 1) = .ok b1) (h2 : byteAt p (a + 2) = .ok b2) (h3 : byteAt p (a + 3) = .ok b3) :
    be32 p a = .ok (b0 ++ b1 ++ b2 ++ b3) := by
  simp [be32, h0, h1, h2, h3, bind, Except.bind]

/-- A bind that ends in a record: the first part ended in a value. -/
theorem bind_ok_iff {α β : Type} {x : Except Stop α} {f : α → Except Stop β} {r : β} :
    (x >>= f) = .ok r ↔ ∃ a, x = .ok a ∧ f a = .ok r := by
  cases x <;> simp [bind, Except.bind]

/-- A bind that stops: its first part stopped, or what follows it did. -/
theorem bind_error_iff {α β : Type} {x : Except Stop α} {f : α → Except Stop β} {e : Stop} :
    (x >>= f) = .error e ↔ x = .error e ∨ ∃ a, x = .ok a ∧ f a = .error e := by
  cases x <;> simp [bind, Except.bind]

/-! ### Commands and completion -/

/-- Everything a CMD write can do (44_control_and_bus.md R230). -/
theorem writeCmd_cases (w : Word) (p : Pseg) :
    (decodeCmd p.params w = .nop ∧ writeCmd w p = p)
    ∨ (decodeCmd p.params w ≠ .nop ∧ p.status.busy = true ∧ writeCmd w p = dropCmd p)
    ∨ (p.status.busy = false ∧ decodeCmd p.params w = .clear ∧ writeCmd w p = clearCmd p)
    ∨ (p.status.busy = false ∧ decodeCmd p.params w = .illegal ∧ writeCmd w p = illegalCmd w p)
    ∨ (p.status.busy = false ∧ (decodeCmd p.params w = .decodeTcp ∨ decodeCmd p.params w = .decodeUdp
        ∨ decodeCmd p.params w = .routeTcp ∨ decodeCmd p.params w = .routeUdp)
        ∧ writeCmd w p = acceptCmd w p) := by
  unfold writeCmd issueCmd
  cases h : decodeCmd p.params w <;> cases hb : p.status.busy <;> simp

/-- Everything a completion can do (60_exceptions.md R264). -/
theorem complete_cases (p : Pseg) :
    (complete p = p ∧ (p.status.busy = false ∨ p.fault ≠ none ∨ engineBody p = none))
    ∨ (p.status.busy = true ∧ p.fault = none
        ∧ ((∃ r, engineBody p = some (.ok r) ∧ complete p = commitOp r p)
          ∨ (∃ c, engineBody p = some (.error (.finish c)) ∧ complete p = finishOp c p)
          ∨ (∃ f, engineBody p = some (.error (.raise f)) ∧ complete p = raiseFault f p))) := by
  unfold complete
  cases hb : p.status.busy
  · simp
  · cases hf : p.fault with
    | some f => simp
    | none =>
      rcases he : engineBody p with _ | (e | r)
      · simp
      · cases e <;> simp [settle]
      · simp [settle]

/-! ### The machine around one instance -/

/-- A selection keeps the instances and everything else, and addresses the `k`-th. -/
theorem select_spec {k : Nat} {s t : State} (h : select k s = some t) :
    instances t = instances s ∧ (instances s)[k]? = some t.cur ∧ t.before.length = k
      ∧ t.turns = s.turns ∧ t.observed = s.observed := by
  unfold select at h
  split at h
  · cases h
  · next p rest hd =>
    cases h
    have hk : k < (instances s).length := by
      by_contra hge
      rw [List.drop_eq_nil_of_le (by omega)] at hd
      cases hd
    refine ⟨?_, ?_, ?_, rfl, rfl⟩
    · show (instances s).take k ++ p :: rest = instances s
      rw [← hd, List.take_append_drop]
    · rw [List.drop_eq_getElem_cons hk] at hd
      simp only [List.cons.injEq] at hd
      rw [List.getElem?_eq_getElem hk, hd.1]
    · simp
      omega

theorem select_none_iff {k : Nat} {s : State} : select k s = none ↔ (instances s).length ≤ k := by
  unfold select
  split
  · next h => simpa using List.drop_eq_nil_iff.mp h
  · next p rest h =>
    simp only [reduceCtorEq, false_iff, not_le]
    by_contra hge
    rw [List.drop_eq_nil_of_le (by omega)] at h
    cases h

/-- Addressing the instance that is addressed already changes nothing. -/
theorem select_cur (s : State) : select s.before.length s = some s := by
  simp [select, instances]

theorem anyFault_none_iff {s : State} : anyFault s = none ↔ ∀ p ∈ instances s, p.fault = none := by
  simp [anyFault, List.findSome?_eq_none_iff]

/-- Everything a step can do: a reset, an access, an engine step, an idle step, or a stop. -/
theorem step_cases (s : State) :
    (∃ ts, s.turns = .reset :: ts ∧ step s = .next (resetAll { s with turns := ts }))
    ∨ (∃ k q w ts, s.turns = .access k q w :: ts ∧ anyFault s = none
        ∧ step s = runAccess k q w { s with turns := ts })
    ∨ (∃ k ts, s.turns = .engine k :: ts ∧ anyFault s = none ∧ step s = runEngine k { s with turns := ts })
    ∨ (s.turns = [] ∧ anyFault s = none ∧ step s = runIdle s)
    ∨ (∃ f, s.turns.head? ≠ some .reset ∧ anyFault s = some f ∧ step s = .fault f) := by
  rcases ht : s.turns with _ | ⟨t, ts⟩
  · cases hf : anyFault s <;> simp [step, runNext, ht, hf]
  · have hsame : anyFault { s with turns := ts } = anyFault s := rfl
    cases t <;> cases hf : anyFault s <;> simp [step, runNext, ht, runTurn, hsame, hf]

end Sys2Proof.Machine
end

