-- ==== Sys2Proof/Laws/Exec.lean ====
section
/-! SUPPORT. What every instruction has in common: it answers a next state, and it touches only the addressed instance and what
the host's reads have returned. -/

namespace Sys2Proof.Machine

/-- What an access does to the addressed instance and what it returns, when everything around the instance is left out. -/
def accessEffect (i : Instr) (p : Pseg) : Pseg × List Word :=
  match i with
  | .nop proto => (writeCmd (commandWord 0x0 proto) p, [])
  | .decodeTcp => (writeCmd 0x00000001#32 p, [])
  | .decodeUdp => (writeCmd 0x00000101#32 p, [])
  | .routeTcp => (writeCmd 0x00000002#32 p, [])
  | .routeUdp => (writeCmd 0x00000102#32 p, [])
  | .clear proto => (writeCmd (commandWord 0x3 proto) p, [])
  | .csrRd32 r => (p, [csrValue p r])
  | .csrWr32 r w => (writeCsr r w p, [])
  | .ibufRd8 off =>
    if p.params.bufBytes ≤ off.toNat then (raiseFault (.busError (1#1 ++ off)) p, [])
    else match Memory.read p.ibuf off.toNat with
      | none => (raiseFault (.uninitialisedRead off.toNat) p, [])
      | some b => (p, [b.setWidth 32])
  | .ibufWr8 off b =>
    if p.params.bufBytes ≤ off.toNat then (raiseFault (.busError (1#1 ++ off)) p, [])
    else if p.status.busy then (raiseFault (.bufferWriteWhileBusy off.toNat) p, [])
    else (storeByte off.toNat b p, [])

/-- Every instruction answers a next state, which is its effect on the addressed instance and what it returned. -/
theorem exec_eq_accessEffect (i : Instr) (s : State) :
    exec i s = .next { s with cur := (accessEffect i s.cur).1, observed := s.observed ++ (accessEffect i s.cur).2 } := by
  cases i with
  | nop proto => simp [exec, execNop, accessEffect, onCur]
  | decodeTcp => simp [exec, execDecodeTcp, accessEffect, onCur]
  | decodeUdp => simp [exec, execDecodeUdp, accessEffect, onCur]
  | routeTcp => simp [exec, execRouteTcp, accessEffect, onCur]
  | routeUdp => simp [exec, execRouteUdp, accessEffect, onCur]
  | clear proto => simp [exec, execClear, accessEffect, onCur]
  | csrRd32 r => simp [exec, execCsrRd32, accessEffect, returnData]
  | csrWr32 r w => simp [exec, execCsrWr32, accessEffect, onCur]
  | ibufRd8 off =>
    simp only [exec, execIbufRd8, accessEffect]
    split
    · simp [onCur]
    · cases Memory.read s.cur.ibuf off.toNat <;> simp [onCur, returnData]
  | ibufWr8 off b =>
    simp only [exec, execIbufWr8, accessEffect]
    split
    · simp [onCur]
    · split <;> simp [onCur]

/-- Everything but the addressed instance and the observation is left alone. -/
theorem exec_frame {i : Instr} {s t : State} (h : exec i s = .next t) :
    t.before = s.before ∧ t.after = s.after ∧ t.turns = s.turns ∧ t.cur = (accessEffect i s.cur).1
      ∧ t.observed = s.observed ++ (accessEffect i s.cur).2 := by
  rw [exec_eq_accessEffect] at h
  cases h
  exact ⟨rfl, rfl, rfl, rfl, rfl⟩

/-- The parameters are kept by every access. -/
theorem accessEffect_params (i : Instr) (p : Pseg) : (accessEffect i p).1.params = p.params := by
  have hw : ∀ w, (writeCmd w p).params = p.params := fun w => by
    rcases writeCmd_cases w p with ⟨_, h⟩ | ⟨_, _, h⟩ | ⟨_, _, h⟩ | ⟨_, _, h⟩ | ⟨_, _, h⟩ <;> simp [h]
  cases i with
  | nop proto => exact hw _
  | decodeTcp => exact hw _
  | decodeUdp => exact hw _
  | routeTcp => exact hw _
  | routeUdp => exact hw _
  | clear proto => exact hw _
  | csrRd32 r => rfl
  | csrWr32 r w => cases r <;> first | exact hw w | rfl
  | ibufRd8 off =>
    simp only [accessEffect]
    split
    · simp
    · split <;> simp
  | ibufWr8 off b =>
    simp only [accessEffect]
    split
    · simp
    · split <;> simp

end Sys2Proof.Machine
end

