-- ==== Sys2Proof/Laws/PerInstr.lean ====
section
/-! SUPPORT. A fact about every instruction, one lemma a constructor: the WE bit of its request (30_encoding.md R105) is 0
exactly for the two reads. -/

namespace Sys2Proof.Laws.WriteEnable

/-- The request of `i` is a read exactly where `i` is CSR_RD32 or IBUF_RD8. -/
def Statement (i : Instr) : Prop :=
  (encode i).1.extractLsb' 19 1 = 0 ↔ (∃ r, i = .csrRd32 r) ∨ ∃ off, i = .ibufRd8 off

theorem nop (proto : BitVec 1) : Statement (.nop proto) := by
  simp [Statement, encode, csrRequest, we_requestWord]

theorem decodeTcp : Statement .decodeTcp := by simp [Statement, encode, csrRequest, we_requestWord]

theorem decodeUdp : Statement .decodeUdp := by simp [Statement, encode, csrRequest, we_requestWord]

theorem routeTcp : Statement .routeTcp := by simp [Statement, encode, csrRequest, we_requestWord]

theorem routeUdp : Statement .routeUdp := by simp [Statement, encode, csrRequest, we_requestWord]

theorem clear (proto : BitVec 1) : Statement (.clear proto) := by
  simp [Statement, encode, csrRequest, we_requestWord]

theorem csrRd32 (r : Csr) : Statement (.csrRd32 r) := by
  simp [Statement, encode, csrRequest, we_requestWord]

theorem csrWr32 (r : Csr) (wdata : Word) : Statement (.csrWr32 r wdata) := by
  simp [Statement, encode, csrRequest, we_requestWord]

theorem ibufRd8 (off : BitVec 16) : Statement (.ibufRd8 off) := by
  simp [Statement, encode, ibufRequest, we_requestWord]

theorem ibufWr8 (off : BitVec 16) (b : Byte) : Statement (.ibufWr8 off b) := by
  simp [Statement, encode, ibufRequest, we_requestWord]

end Sys2Proof.Laws.WriteEnable
end

