-- ==== Sys2Proof/Tests/Slice0.lean ====
section
/-! SUPPORT. Tests on small states, their expected values from spec/95_test_vectors.md, and a witness for the hypotheses of every
statement that has some. -/

namespace Sys2Proof.Tests

open Sys2Proof.Machine Sys2Proof.Stated

/-! ### Small states -/

/-- The cells that hold `bs` from offset `a` on. -/
def cells : Nat → List Byte → List Host.Cell
  | _, [] => []
  | a, b :: bs => (a, b) :: cells (a + 1) bs

/-- A fresh instance with bytes in IBUF from offset 0. -/
def holding (c : Params) (bs : List Byte) : Pseg := { Pseg.reset c with ibuf := cells 0 bs }

/-- An instance with an accepted operation in flight on those bytes. -/
def inFlight (c : Params) (w : Word) (len : Word) (bs : List Byte) : Pseg :=
  acceptCmd w { holding c bs with len := len }

/-- A machine of one instance, nothing scheduled. -/
def alone (p : Pseg) : State := { State.reset with cur := p }

/-- The default parameters with ROUTE_LEN_FROM_IP = 0. -/
def wholeFrame : Params := { Params.default with routeLenFromIp := false }

/-- The default parameters without the router. -/
def noRouter : Params := { Params.default with hasRouter := false }

/-- Input V1 with the offset/flags word `hi : lo` (95_test_vectors.md 0.2). -/
def tcpBytes (hi lo : Byte) : List Byte :=
  [0x04, 0xD2, 0x00, 0x50, 0x00, 0x00, 0x03, 0xE8, 0x00, 0x00, 0x00, 0x00]
    ++ [hi, lo, 0x20, 0x00, 0xAB, 0xCD, 0x00, 0x00]

/-- Input V2 with the declared length `ul` in its low byte (95_test_vectors.md 0.2). -/
def udpBytes (ul : Byte) : List Byte :=
  [0x13, 0x88, 0x00, 0x35, 0x00, ul, 0x00, 0x00, 0x48, 0x45, 0x4C, 0x4C, 0x4F, 0x21, 0x21, 0x21]

/-- An Ethernet II and IPv4 envelope: MAC addresses, EtherType, and the IPv4 header of inputs FT and FU. -/
def envelope (totalLen fragHi fragLo proto : Byte) : List Byte :=
  [0x02, 0x00, 0x00, 0x00, 0x00, 0x02, 0x02, 0x00, 0x00, 0x00, 0x00, 0x01, 0x08, 0x00]
    ++ [0x45, 0x00, 0x00, totalLen, 0x00, 0x00, fragHi, fragLo, 0x40, proto, 0x00, 0x00]
    ++ [0x0A, 0x00, 0x00, 0x01, 0x0A, 0x00, 0x00, 0x02]

/-- The TCP segment of input FT. -/
def innerTcp : List Byte :=
  [0xC3, 0x50, 0x01, 0xBB, 0x00, 0x00, 0x00, 0x01, 0x00, 0x00, 0x00, 0x00]
    ++ [0x80, 0x02, 0xFF, 0xFF, 0x00, 0x00, 0x00, 0x00]
    ++ [0x02, 0x04, 0x05, 0xB4, 0x01, 0x01, 0x04, 0x02, 0x01, 0x01, 0x01, 0x00, 0x68, 0x69]

/-- Input FT. -/
def frameTcp : List Byte := envelope 0x36 0x40 0x00 6 ++ innerTcp

/-- Input FU: a 10-byte UDP datagram and 16 bytes of padding. -/
def frameUdp : List Byte :=
  envelope 0x1E 0x00 0x00 17 ++ [0x13, 0x88, 0x00, 0x35, 0x00, 0x0A, 0x00, 0x00, 0x4F, 0x4B]
    ++ List.replicate 16 0x00

/-- The bytes of a list as a function. -/
def bytesOf (bs : List Byte) (j : Nat) : Byte := bs.getD j 0

/-! ### Well-formedness: an ill-formed instruction for each check -/

theorem test_illformed_route : Instr.WellFormed noRouter .routeTcp = false ∧ Instr.WellFormed noRouter .routeUdp = false := by
  decide

theorem test_illformed_cmd_write : Instr.WellFormed .default (.csrWr32 .cmd 0x103) = false := by decide

theorem test_illformed_ibuf_offset :
    Instr.WellFormed .default (.ibufRd8 256) = false ∧ Instr.WellFormed .default (.ibufWr8 256 0) = false := by decide

theorem test_wellformed_boundaries :
    Instr.WellFormed .default (.ibufRd8 255) = true ∧ Instr.WellFormed .default (.csrWr32 .cmd 0x10) = true
      ∧ Instr.WellFormed noRouter (.csrWr32 .cmd 0x2) = true := by decide

/-! ### Requests that are no access (95_test_vectors.md B11 to B21), and the encodings of 30_encoding.md R107 -/

theorem test_bus_errors :
    [0x10100, 0x90100, 0x40018, 0x4001C, 0x40064, 0x40009, 0x20008, 0x60008, 0x00008, 0x50000, 0xD0000].map
        (fun q => decodeBus .default (BitVec.ofNat 20 q))
      = [0x10100, 0x10100, 0x18, 0x1C, 0x64, 0x09, 0x08, 0x08, 0x08, 0x10000, 0x10000].map
        (fun a => BusOp.busError (BitVec.ofNat 17 a)) := by decide

theorem test_request_words :
    encode (.csrRd32 .payLen) = (0x40060, 0) ∧ encode (.csrWr32 .len 20) = (0xC0014, 20)
      ∧ encode (.ibufRd8 66) = (0x10042, 0) ∧ encode (.ibufWr8 5 0x78) = (0x90005, 0x78)
      ∧ encode .routeUdp = (0xC0004, 0x102) := by decide

/-! ### Commands -/

/-- K15: NOP 0x100 after U2 keeps STATUS. -/
theorem test_nop_keeps :
    (match exec (.nop 1) (alone (complete (inFlight .default 0x101 16 (udpBytes 16)))) with
      | .next t => csrValue t.cur .status | _ => 0) = 0x0011000A := by decide

/-- K2: DECODE.TCP accepted; K4: a second command dropped. -/
theorem test_decode_tcp_accept :
    csrValue (writeCmd 0x1 (holding .default [])) .status = 0x00010001
      ∧ csrValue (writeCmd 0x101 (inFlight .default 0x1 20 [])) .status = 0x00010011 := by decide

/-- K14: CLEAR 0x103 after U2. -/
theorem test_clear_zeroes :
    csrValue (clearCmd (complete (inFlight .default 0x101 16 (udpBytes 16)))) .status = 0
      ∧ writeCmd 0x103 (complete (inFlight .default 0x101 16 (udpBytes 16)))
        = clearCmd (complete (inFlight .default 0x101 16 (udpBytes 16))) := by decide

/-- K7a and K9a: illegal words after U2. -/
theorem test_illegal_words :
    csrValue (writeCmd 0x4 (complete (inFlight .default 0x101 16 (udpBytes 16)))) .status = 0x00141006
      ∧ csrValue (writeCmd 0x10 (complete (inFlight .default 0x101 16 (udpBytes 16)))) .status = 0x00101006 := by decide

/-- E15b: ROUTE.UDP without the router. -/
theorem test_route_without_router : csrValue (writeCmd 0x102 (holding noRouter [])) .status = 0x00021006 := by decide

/-! ### Completions -/

/-- T3. -/
theorem test_decode_tcp_record :
    let p := complete (inFlight .default 0x1 20 (tcpBytes 0x50 0x02))
    [Csr.status, .srcPort, .dstPort, .seq, .doff, .flags, .window, .checksum, .segLen, .optOff, .optLen, .payOff, .payLen].map
        (csrValue p)
      = [0x0001000A, 1234, 80, 1000, 5, 0x002, 8192, 0xABCD, 20, 20, 0, 20, 0] := by decide

/-- T12 and T13: the order of the checks. T17b: an unwritten byte. -/
theorem test_decode_tcp_failures :
    csrValue (complete (inFlight .default 0x1 20 (tcpBytes 0x6E 0x02))) .status = 0x00010106
      ∧ csrValue (complete (inFlight .default 0x1 20 (tcpBytes 0x3E 0x02))) .status = 0x00010206
      ∧ (complete (inFlight .default 0x1 20 [])).fault = some (.uninitialisedRead 0) := by decide

/-- U2. -/
theorem test_decode_udp_record :
    let p := complete (inFlight .default 0x101 16 (udpBytes 16))
    [Csr.status, .srcPort, .dstPort, .udpLen, .segLen, .payOff, .payLen, .optOff].map (csrValue p)
      = [0x0011000A, 5000, 53, 16, 16, 8, 8, 0] := by decide

/-- U5a, U6 and U7. -/
theorem test_decode_udp_failures :
    csrValue (complete (inFlight .default 0x101 16 (udpBytes 17))) .status = 0x00110506
      ∧ csrValue (complete (inFlight .default 0x101 16 (udpBytes 4))) .status = 0x00110406
      ∧ csrValue (complete (inFlight .default 0x101 257 (udpBytes 16))) .status = 0x00111106 := by decide

/-- E1. -/
theorem test_route_tcp_record :
    let p := complete (inFlight .default 0x2 68 frameTcp)
    [Csr.status, .srcPort, .dstPort, .seq, .doff, .window, .segOff, .segLen, .optOff, .optLen, .payOff, .payLen].map (csrValue p)
      = [0x0002000A, 50000, 443, 1, 8, 65535, 34, 34, 54, 12, 66, 2] := by decide

/-- E11, E12a and E10a on the envelope alone, and E4b. -/
theorem test_route_tcp_failures :
    csrValue (complete (inFlight .default 0x2 68 (envelope 0x36 0x00 0x01 17))) .status = 0x00022306
      ∧ csrValue (complete (inFlight .default 0x2 68 (envelope 0x36 0x00 0x01 6))) .status = 0x00022406
      ∧ csrValue (complete (inFlight .default 0x2 33 frameTcp)) .status = 0x00022006 := by decide

/-- E14a. -/
theorem test_route_udp_record :
    let p := complete (inFlight .default 0x102 60 frameUdp)
    [Csr.status, .srcPort, .dstPort, .udpLen, .segOff, .segLen, .payOff, .payLen].map (csrValue p)
      = [0x0012000A, 5000, 53, 10, 34, 10, 42, 2] := by decide

/-- E14b: the padding becomes part of the segment. E9b: an empty segment. -/
theorem test_route_udp_failures :
    csrValue (complete (inFlight wholeFrame 0x102 60 frameUdp)) .status = 0x00120506
      ∧ csrValue (complete (inFlight .default 0x102 68 (envelope 20 0 0 17))) .status = 0x00120106 := by decide

/-! ### The bus operations -/

/-- B1a to B1c and B2. -/
theorem test_read_constants :
    csrValue (holding .default []) .caps = 3 ∧ csrValue (holding wholeFrame []) .caps = 1
      ∧ csrValue (holding noRouter []) .caps = 0 ∧ csrValue (holding .default []) .bufsize = 0x100 := by decide

/-- B4, B5 and B7. -/
theorem test_register_writes :
    csrValue (writeCsr .ctrl 0xFFFFFFFF (holding .default [])) .ctrl = 1
      ∧ csrValue (writeCsr .len 0xFFFFFFFF (holding .default [])) .len = 0xFFFFFFFF
      ∧ writeCsr .srcPort 0x12345678 (holding .default []) = holding .default [] := by decide

/-- B9 and B22. -/
theorem test_ibuf_read :
    (match exec (.ibufRd8 0) (alone (holding .default [0x78])) with | .next t => t.observed | _ => []) = [0x78]
      ∧ (match exec (.ibufRd8 5) (alone (holding .default [])) with | .next t => t.cur.fault | _ => none)
        = some (.uninitialisedRead 5) := by decide

/-- B8 (through the request, with its whole data word) and B23. -/
theorem test_ibuf_write :
    (match runAccess 0 0x90000 0x12345678 (alone (holding .default [])) with | .next t => t.cur.ibuf | _ => []) = [(0, 0x78)]
      ∧ (match exec (.ibufWr8 5 0) (alone (inFlight .default 1 0 [])) with | .next t => t.cur.fault | _ => none)
        = some (.bufferWriteWhileBusy 5) := by decide

/-! ### The first step after reset -/

/-- A table word placed on the machine right after reset is run by the next step. -/
theorem test_first_step :
    (match step (State.reset.withFetchWord 32 0x00000102) with | .next t => csrValue t.cur .status | _ => 0) = 0x00120001
      ∧ (match step (State.reset.withFetchWord 24 0x4000C) with | .next t => t.observed | _ => []) = [0x100] := by decide

/-! ### The renderer -/

/-- X7, X8, X11 and X12. -/
theorem test_render_flags :
    renderFlags true 0x0FF = "[URG, ACK, PSH, RST, SYN, FIN, ECE, CWR]".toList
      ∧ renderFlags false 0x0FF = "[URG, ACK, PSH, RST, SYN, FIN]".toList
      ∧ renderFlags true 0x0C0 = "[ECE, CWR]".toList ∧ renderFlags true 0x100 = "[none]".toList := by decide

/-- X14 and X17. -/
theorem test_render_bytes :
    hex4 0x00FF = "0x00FF".toList ∧ renderBytes [0x00, 0x41, 0x20, 0x7F] = "0x00 A   0x7F".toList := by decide

/-- X2. -/
theorem test_render_udp :
    render true (complete (inFlight .default 0x101 16 (udpBytes 16)))
      = .ok ("UDP Datagram\n  Source Port: 5000\n  Destination Port: 53\n  Length: 16\n  Checksum: 0x0000\n".toList
        ++ "  Payload: 8 bytes\n  Payload Data: H E L L O ! ! !\n".toList) := by decide

/-! ### Witnesses: a state and operands that meet the hypotheses of each statement, at the ends of their ranges -/

theorem witness_AcceptLatchesAndClears :
    State.reset.cur.status.busy = false ∧ State.reset.cur.params.hasRouter = true := by decide

theorem witness_IllegalCommandCompletesAtOnce :
    (alone (holding noRouter [])).cur.status.busy = false ∧ (alone (holding noRouter [])).cur.params.hasRouter = false
      ∧ 4 ≤ ((0x4#32).extractLsb' 0 4).toNat ∧ 4 ≤ ((0xF#32).extractLsb' 0 4).toNat
      ∧ (0x10#32).extractLsb' 4 4 ≠ 0 ∧ (0x80#32).extractLsb' 4 4 ≠ 0
      ∧ (0x200#32).extractLsb' 9 23 ≠ 0 ∧ (0x80000000#32).extractLsb' 9 23 ≠ 0
      ∧ ((0x102#32).extractLsb' 0 4).toNat = 2 := by decide

theorem witness_ClearZeroesStatusAndRecord :
    State.reset.cur.status.busy = false
      ∧ ∃ t, exec (.nop 0) (alone (dropCmd (inFlight .default 1 0 []))) = .next t
        ∧ (alone (dropCmd (inFlight .default 1 0 []))).cur.status.overrun = true :=
  ⟨by decide, _, rfl, by decide⟩

theorem witness_CommandWhileBusyIsDropped :
    (alone (inFlight .default 1 0 [])).cur.status.busy = true ∧ (0x00000001#32) ≠ 0x00000000#32
      ∧ (0xFFFFFFFF#32) ≠ 0x00000100#32 := by decide

theorem witness_CapsAndBufsizeAreConstants :
    ∃ t, exec .decodeTcp State.reset = .next t ∧ (Csr.caps = .caps ∨ Csr.caps = .bufsize)
      ∧ (Csr.bufsize = .caps ∨ Csr.bufsize = .bufsize) := ⟨_, rfl, by decide, by decide⟩

theorem witness_RegisterWriteStoresOrIsIgnored :
    Csr.status ≠ .cmd ∧ Csr.status ≠ .ctrl ∧ Csr.status ≠ .len ∧ Csr.payLen ≠ .cmd ∧ Csr.payLen ≠ .ctrl
      ∧ Csr.payLen ≠ .len := by decide

theorem witness_CtrlAndLenReadBack :
    (∃ t u, exec (.csrWr32 .len 0xFFFFFFFF) State.reset = .next t ∧ exec (.csrRd32 .len) t = .next u)
      ∧ ∃ t u, exec (.csrWr32 .ctrl 0xFFFFFFFF) State.reset = .next t ∧ exec (.csrRd32 .ctrl) t = .next u :=
  ⟨⟨_, _, rfl, rfl⟩, _, _, rfl, rfl⟩

theorem witness_IbufReadReturnsTheByte :
    (255#16).toNat < (alone (storeByte 255 7 (holding .default []))).cur.params.bufBytes
      ∧ Memory.read (alone (storeByte 255 7 (holding .default []))).cur.ibuf (255#16).toNat = some 7
      ∧ Memory.read (alone (holding .default [])).cur.ibuf (0#16).toNat = none := by decide

theorem witness_IbufWriteStoresTheByte :
    (255#16).toNat < State.reset.cur.params.bufBytes ∧ State.reset.cur.status.busy = false
      ∧ (255#16).toNat < (alone (inFlight .default 1 0 [])).cur.params.bufBytes
      ∧ (alone (inFlight .default 1 0 [])).cur.status.busy = true
      ∧ (0#16).toNat < Params.default.bufBytes := by decide

theorem witness_BufferOffsetBeyondCapacity :
    State.reset.cur.params.bufBytes ≤ (256#16).toNat ∧ State.reset.cur.params.bufBytes ≤ (65535#16).toNat := by decide

theorem witness_RequestsDecodeAsAdmitted :
    (IsCsrRequest 0x40000 ∧ IsCsrRequest 0xC0014 ∧ IsCsrRequest 0x40020 ∧ IsCsrRequest 0xC0060)
      ∧ (IsIbufRequest .default 0x10000 ∧ IsIbufRequest .default 0x900FF)
      ∧ (¬ IsCsrRequest 0x40018 ∧ ¬ IsIbufRequest .default 0x40018)
      ∧ ¬ IsCsrRequest 0x10100 ∧ ¬ IsIbufRequest .default 0x10100 := by
  unfold IsCsrRequest IsIbufRequest
  decide

theorem witness_DecodeOfEncode :
    [Instr.nop 1, .decodeTcp, .decodeUdp, .routeTcp, .routeUdp, .clear 1, .csrRd32 .payLen, .csrWr32 .cmd 0xFFFFFFFF,
      .ibufRd8 255, .ibufWr8 255 0xFF].all (Instr.WellFormed .default) = true := by decide

theorem witness_EncodeOfDecode :
    decode .default 0xC0004 0x103 = .ok (.clear 1) ∧ decode .default 0x40060 9 = .ok (.csrRd32 .payLen)
      ∧ decode .default 0x900FF 0x12345678 = .ok (.ibufWr8 255 0x78) := ⟨rfl, rfl, rfl⟩

/-- Two instances; the host's next access is to the second. -/
def pair : State :=
  { State.resetOf .default [noRouter] with turns := [.access 1 0xC0004#20 0x1#32, .engine 0] }

theorem witness_StepRunsTheDecodedInstruction :
    pair.turns = .access 1 0xC0004#20 0x1#32 :: [.engine 0] ∧ anyFault pair = none
      ∧ ∃ t, select 1 pair = some t ∧ decode t.cur.params 0xC0004#20 0x1#32 = .ok .decodeTcp :=
  ⟨rfl, rfl, _, rfl, rfl⟩

theorem witness_UnadmittedAccessIsBusError :
    (pushAccess 0x40018#20 0 State.reset).turns = .access 0 0x40018#20 0 :: []
      ∧ anyFault (pushAccess 0x40018#20 0 State.reset) = none
      ∧ (∃ t, select 0 (pushAccess 0x40018#20 0 State.reset) = some t ∧ ¬ IsIbufRequest t.cur.params 0x40018#20)
      ∧ ¬ IsCsrRequest 0x40018#20 ∧ ([] : List Turn).head? ≠ some .reset := by
  refine ⟨rfl, rfl, ⟨_, rfl, ?_⟩, ?_, by decide⟩
  · unfold IsIbufRequest
    decide
  · unfold IsCsrRequest
    decide

/-- A machine with an operation in flight and the engine's turn next. -/
def engineNext : State := { alone (inFlight .default 0x1 20 (tcpBytes 0x50 0x02)) with turns := [.engine 0] }

theorem witness_EngineTurnCompletes :
    engineNext.turns = .engine 0 :: [] ∧ anyFault engineNext = none ∧ ∃ t, select 0 engineNext = some t :=
  ⟨rfl, rfl, _, rfl⟩

theorem witness_ResetPutsEveryInstanceToItsResetValues :
    ({ engineNext with turns := [.reset] } : State).turns = .reset :: [] := rfl

theorem witness_EngineReadsBigEndian :
    Holds (storeByte 254 4 (storeByte 255 0xD2 (holding .default []))) 254 2 (bytesOf [4, 0xD2])
      ∧ Holds (holding .default (udpBytes 16)) 12 4 (bytesOf [0x4F, 0x21, 0x21, 0x21]) := by
  unfold Holds
  decide

theorem witness_TcpBodyFollowsItsSteps :
    20 ≤ 20 ∧ Holds (holding .default (tcpBytes 0x50 0x02)) 0 20 (bytesOf (tcpBytes 0x50 0x02)) := by
  unfold Holds
  decide

theorem witness_UdpBodyFollowsItsSteps :
    8 ≤ 16 ∧ Holds (holding .default (udpBytes 16)) 0 8 (bytesOf (udpBytes 16)) := by
  unfold Holds
  decide

theorem reached_mem_envelope {x : Nat → Byte} {len want a : Nat} (h : RouteReaches x len want a) : a ∈ envelopeOrder := by
  unfold RouteReaches at h
  simp only [envelopeOrder, List.mem_cons, List.not_mem_nil, or_false]
  omega

/-- An instance that holds of input FT the bytes at these offsets only. -/
def holdingOnly (offs : List Nat) : Pseg :=
  { Pseg.reset .default with ibuf := offs.map (fun a => (a, bytesOf frameTcp a)) }

/-- All eight bytes are reached and written. -/
theorem witness_RouteBodyFollowsItsSteps (a : Nat) (h : RouteReaches (bytesOf frameTcp) 68 6 a) :
    Memory.read (holdingOnly [12, 13, 14, 16, 17, 20, 21, 23]).ibuf a = some (bytesOf frameTcp a) := by
  have all : ∀ c ∈ envelopeOrder,
      Memory.read (holdingOnly [12, 13, 14, 16, 17, 20, 21, 23]).ibuf c = some (bytesOf frameTcp c) := by decide
  exact all a (reached_mem_envelope h)

/-- A frame that fails at step 2 or at step 4 with no later byte written. -/
theorem witness_RouteBodyFollowsItsSteps_early (a : Nat) :
    (RouteReaches (fun _ => 0x86) 68 6 a →
      Memory.read { Pseg.reset .default with ibuf := [(12, 0x86), (13, 0x86)] }.ibuf a = some 0x86)
    ∧ (RouteReaches (bytesOf (frameTcp.take 14 ++ [0x65])) 68 6 a →
      Memory.read { Pseg.reset .default with ibuf := [(12, 0x08), (13, 0x00), (14, 0x65)] }.ibuf a
        = some (bytesOf (frameTcp.take 14 ++ [0x65]) a)) := by
  constructor
  · intro h
    have stop : ¬ ReachesVersion (fun _ => 0x86) 68 := by unfold ReachesVersion; decide
    simp only [RouteReaches, ReachesProtocol, ReachesTotalLength, stop, false_and, and_false, or_false] at h
    rcases h with ⟨rfl | rfl, -⟩ <;> rfl
  · intro h
    have stop : ¬ ReachesTotalLength (bytesOf (frameTcp.take 14 ++ [0x65])) 68 := by
      unfold ReachesTotalLength ReachesVersion; decide
    simp only [RouteReaches, ReachesProtocol, stop, false_and, and_false, or_false] at h
    rcases h with ⟨rfl | rfl, -⟩ | ⟨rfl, -⟩ <;> rfl

theorem witness_UnwrittenHeaderByteFaults :
    (Holds (holding .default ((tcpBytes 0x50 0x02).take 19)) 0 19 (bytesOf (tcpBytes 0x50 0x02))
      ∧ Memory.read (holding .default ((tcpBytes 0x50 0x02).take 19)).ibuf (0 + 19) = none)
    ∧ Holds (holding .default ((udpBytes 16).take 7)) 0 7 (bytesOf (udpBytes 16))
      ∧ Memory.read (holding .default ((udpBytes 16).take 7)).ibuf (0 + 7) = none := by
  unfold Holds
  decide

/-- Every byte of the order is reached by input FT, so the router faults at whichever of them is the first unwritten. -/
theorem witness_UnwrittenHeaderByteFaults_router :
    (∀ a ∈ envelopeOrder, RouteReaches (bytesOf frameTcp) 68 (6 : Byte).toNat a)
      ∧ envelopeOrder = [] ++ 12 :: [13, 14, 16, 17, 23, 20, 21] ∧ Memory.read (holdingOnly []).ibuf 12 = none
      ∧ envelopeOrder = [12, 13, 14, 16, 17, 23, 20] ++ 21 :: []
      ∧ (∀ c ∈ [12, 13, 14, 16, 17, 23, 20],
          Memory.read (holdingOnly [12, 13, 14, 16, 17, 20, 23]).ibuf c = some (bytesOf frameTcp c))
      ∧ Memory.read (holdingOnly [12, 13, 14, 16, 17, 20, 23]).ibuf 21 = none := by
  unfold RouteReaches ReachesProtocol ReachesTotalLength ReachesVersion
  decide

theorem witness_DecodeCompletes :
    (let p := inFlight .default 0x1 20 (tcpBytes 0x50 0x02)
     p.status.busy = true ∧ p.fault = none ∧ p.latOp = 0x1 ∧ p.latLen.toNat ≤ p.params.bufBytes ∧ p.latProto = 0
      ∧ Holds p 0 20 (bytesOf (tcpBytes 0x50 0x02)))
    ∧ (let p := inFlight .default 0x101 16 (udpBytes 16)
       p.status.busy = true ∧ p.fault = none ∧ p.latOp = 0x1 ∧ p.latLen.toNat ≤ p.params.bufBytes ∧ p.latProto = 1
        ∧ Holds p 0 8 (bytesOf (udpBytes 16))) := by
  unfold Holds
  decide

theorem witness_RouteCompletes_tcp :
    let p := inFlight .default 0x2 68 frameTcp
    p.status.busy = true ∧ p.fault = none ∧ p.latOp = 0x2 ∧ p.latLen.toNat ≤ p.params.bufBytes
      ∧ (6 : Byte) = (if p.latProto = 0 then 6 else 17)
      ∧ (∀ a : Nat, RouteReaches (bytesOf frameTcp) p.latLen.toNat (6 : Byte).toNat a →
          Memory.read p.ibuf a = some (bytesOf frameTcp a))
      ∧ (match routeOutcome p.params.routeLenFromIp (bytesOf frameTcp) p.latLen.toNat 6 with
          | .ok seg => seg = (34, 34) | .error _ => False)
      ∧ p.latProto = 0 ∧ Holds p 34 20 (bytesOf innerTcp) := by
  unfold Holds
  have all : ∀ c ∈ envelopeOrder, Memory.read (inFlight .default 0x2 68 frameTcp).ibuf c = some (bytesOf frameTcp c) := by decide
  exact ⟨by decide, by decide, by decide, by decide, by decide, fun a h => all a (reached_mem_envelope h), rfl, by decide, by decide⟩

theorem witness_RouteCompletes_udp :
    let p := inFlight .default 0x102 60 frameUdp
    p.status.busy = true ∧ p.fault = none ∧ p.latOp = 0x2 ∧ p.latLen.toNat ≤ p.params.bufBytes
      ∧ (17 : Byte) = (if p.latProto = 0 then 6 else 17)
      ∧ (∀ a : Nat, RouteReaches (bytesOf frameUdp) p.latLen.toNat (17 : Byte).toNat a →
          Memory.read p.ibuf a = some (bytesOf frameUdp a))
      ∧ (match routeOutcome p.params.routeLenFromIp (bytesOf frameUdp) p.latLen.toNat 17 with
          | .ok seg => seg = (34, 10) | .error _ => False)
      ∧ p.latProto = 1 ∧ Holds p 34 8 (bytesOf (frameUdp.drop 34)) := by
  unfold Holds
  have all : ∀ c ∈ envelopeOrder, Memory.read (inFlight .default 0x102 60 frameUdp).ibuf c = some (bytesOf frameUdp c) := by decide
  exact ⟨by decide, by decide, by decide, by decide, by decide, fun a h => all a (reached_mem_envelope h), rfl, by decide, by decide⟩

theorem witness_RouteCompletes_error :
    let p := inFlight .default 0x2 60 frameUdp
    (6 : Byte) = (if p.latProto = 0 then 6 else 17)
      ∧ (match routeOutcome p.params.routeLenFromIp (bytesOf frameUdp) p.latLen.toNat 6 with
          | .ok _ => False | .error c => c = .finish .routeProtocolMismatch) := by
  exact ⟨by decide, rfl⟩

theorem witness_LengthBeyondBufferIsRefused :
    (let p := inFlight .default 0x1 257 []
     p.status.busy = true ∧ p.fault = none ∧ p.latOp = 0x1 ∧ p.params.bufBytes < p.latLen.toNat)
    ∧ (let p := inFlight .default 0x102 0xFFFFFFFF []
       p.status.busy = true ∧ p.fault = none ∧ p.latOp = 0x2 ∧ p.params.bufBytes < p.latLen.toNat) := by decide

theorem witness_CompletionWritesOnlyItsOutcome :
    (holding .default []).status.busy = false
      ∧ (raiseFault (.uninitialisedRead 0) (inFlight .default 0x1 20 [])).fault ≠ none
      ∧ (inFlight .default 0x2 20 []).status.busy = true ∧ (inFlight .default 0x2 20 []).fault = none
      ∧ (inFlight .default 0x2 20 []).latOp = 0x2 := by decide

theorem witness_RoutedSegmentLiesInTheFrame : routeBody (holding .default frameTcp) 68 6 = .ok (34, 34) := by rfl

theorem witness_EngineReadsInsideTheInput :
    engineBody (inFlight .default 0x1 20 ((tcpBytes 0x50 0x02).take 19)) = some (.error (.raise (.uninitialisedRead 19))) := by
  rfl

theorem witness_OutcomeDependsOnlyOnTheInput :
    let p := inFlight .default 0x1 20 (tcpBytes 0x50 0x02)
    let q := { inFlight .default 0x1 20 (tcpBytes 0x50 0x02 ++ [1, 2, 3]) with irqEn := true, len := 9 }
    p.params = q.params ∧ p.latOp = q.latOp ∧ p.latProto = q.latProto ∧ p.latLen = q.latLen ∧ p.len ≠ q.len
      ∧ ∀ a < p.latLen.toNat, Memory.read p.ibuf a = Memory.read q.ibuf a :=
  ⟨rfl, rfl, rfl, rfl, by decide, fun a h => by
    have h : a < 20 := h
    revert a
    decide⟩

theorem witness_OnlyHeaderBytesMatter :
    let p := holding .default frameTcp
    let q := holding .default (frameTcp ++ [1])
    p.params = q.params ∧ Memory.read p.ibuf 68 ≠ Memory.read q.ibuf 68
      ∧ (∀ j < 20, Memory.read p.ibuf (34 + j) = Memory.read q.ibuf (34 + j))
      ∧ ∀ a ∈ [12, 13, 14, 16, 17, 20, 21, 23], Memory.read p.ibuf a = Memory.read q.ibuf a :=
  ⟨rfl, by decide, by decide, by decide⟩

theorem witness_OutcomeForgetsEarlierOperations :
    let p := { holding .default (tcpBytes 0x50 0x02) with len := 20 }
    let q := complete (inFlight .default 0x101 20 (tcpBytes 0x50 0x02))
    p.params = q.params ∧ p.ibuf = q.ibuf ∧ p.len = q.len ∧ p.status.busy = false ∧ q.status.busy = false
      ∧ p.fault = none ∧ q.fault = none ∧ p.status ≠ q.status ∧ p.params.hasRouter = true :=
  ⟨rfl, rfl, rfl, rfl, by decide, rfl, by decide, by decide, rfl⟩

/-- The invariant of a fresh operation in flight, on any bytes in the buffer. -/
theorem inFlight_inv (bs : List Byte) (h : BufferInv (inFlight .default 0x1 20 bs)) :
    PsegInv (inFlight .default 0x1 20 bs) :=
  have done : (inFlight .default 0x1 20 bs).status.done = true → False := Bool.false_ne_true
  have valid : (inFlight .default 0x1 20 bs).status.valid = true → False := Bool.false_ne_true
  ⟨⟨fun _ => ⟨rfl, rfl, rfl, rfl⟩, fun _ => ⟨rfl, rfl, rfl⟩, fun h => (done h).elim⟩,
    ⟨fun _ => rfl, fun h => (valid h).elim, fun h => (valid h).elim, fun h => (valid h).elim⟩,
    fun _ => ⟨rfl, rfl, .inl rfl⟩, h⟩

theorem buffer_tcp (hi : Byte) : BufferInv (inFlight .default 0x1 20 (tcpBytes hi 0x02)) := by
  unfold BufferInv
  simp only [inFlight, holding, tcpBytes, cells, List.cons_append, List.nil_append]
  exact ⟨by simp [acceptCmd, Memory.wf], by simp [acceptCmd, Memory.within, Pseg.reset, Params.default, Params.bufBytes]⟩

theorem witness_BusyWindowReads :
    PsegInv (inFlight .default 0x1 20 (tcpBytes 0x50 0x02))
      ∧ (inFlight .default 0x1 20 (tcpBytes 0x50 0x02)).status.busy = true := ⟨inFlight_inv _ (buffer_tcp _), rfl⟩

theorem witness_FailureLeavesNoRecord :
    PsegInv (inFlight .default 0x1 20 (tcpBytes 0x40 0x02))
      ∧ (complete (inFlight .default 0x1 20 (tcpBytes 0x40 0x02))).status.err = true :=
  ⟨inFlight_inv _ (buffer_tcp _), rfl⟩

/-- A machine with a recorded fault. -/
def faulted : State := onCur (raiseFault (.uninitialisedRead 3)) State.reset

theorem witness_FaultStopsTheRun :
    anyFault faulted = some (.uninitialisedRead 3) ∧ faulted.turns.head? ≠ some .reset
      ∧ faulted.cur.fault ≠ none
      ∧ anyFault { faulted with turns := [.reset] } = some (.uninitialisedRead 3)
      ∧ ∃ t, step { faulted with turns := [.reset] } = .next t := ⟨rfl, by decide, by decide, rfl, _, rfl⟩

theorem witness_FaultsHaveTheirCauses :
    (∃ t, step (pushAccess 0x10005 0 State.reset) = .next t ∧ anyFault t = some (.uninitialisedRead 5))
      ∧ (∃ t, step (pushAccess 0x90005 0 (alone (inFlight .default 1 0 []))) = .next t
          ∧ anyFault t = some (.bufferWriteWhileBusy 5))
      ∧ (∃ t, step (pushAccess 0x40018 0 State.reset) = .next t ∧ anyFault t = some (.busError 0x18))
      ∧ anyFault State.reset = none ∧ anyFault (alone (inFlight .default 1 0 [])) = none :=
  ⟨⟨_, rfl, rfl⟩, ⟨_, rfl, rfl⟩, ⟨_, rfl, rfl⟩, rfl, rfl⟩

/-- The engine's turn, and the completion still owed, on an input that was never written. -/
theorem witness_FaultsHaveTheirCauses_engine :
    (∃ t, step { alone (inFlight .default 1 20 []) with turns := [.engine 0] } = .next t
        ∧ anyFault t = some (.uninitialisedRead 0))
      ∧ (∃ t, step (alone (inFlight .default 1 20 [])) = .next t ∧ anyFault t = some (.uninitialisedRead 0))
      ∧ anyFault (alone (inFlight .default 1 20 [])) = none :=
  ⟨⟨_, rfl, rfl⟩, ⟨_, rfl, rfl⟩, rfl⟩

theorem witness_StepKeepsTheInvariant : Inv engineNext ∧ ∃ t, step engineNext = .next t := by
  refine ⟨fun p hp => ?_, _, rfl⟩
  have : p = inFlight .default 0x1 20 (tcpBytes 0x50 0x02) := by simpa [engineNext, alone, instances, State.reset, State.resetOf] using hp
  exact this ▸ inFlight_inv _ (buffer_tcp _)

theorem witness_ParametersNeverChange : ∃ t, step pair = .next t := ⟨_, rfl⟩

theorem witness_InstancesShareNothing :
    pair.turns = .access 1 0xC0004#20 0x1#32 :: [.engine 0] ∧ addressee (.access 1 0xC0004#20 0x1#32) = some 1
      ∧ (∃ t, step pair = .next t) ∧ addressee (.engine 0) = some 0
      ∧ (instances pair)[1]? = (instances { pair with before := [], cur := (inFlight .default 2 0 []), observed := [7] })[1]?
      ∧ anyFault { pair with before := [], cur := (inFlight .default 2 0 []), observed := [7] } = none :=
  ⟨rfl, rfl, ⟨_, rfl⟩, rfl, rfl, rfl⟩

theorem witness_OwedCompletionsHappen :
    Inv { engineNext with turns := [] } ∧ ({ engineNext with turns := [] } : State).turns = []
      ∧ anyFault { engineNext with turns := [] } = none ∧ 0 < busyCount { engineNext with turns := [] } :=
  ⟨witness_StepKeepsTheInvariant.1, rfl, rfl, by decide⟩

theorem witness_FinalStateIsStable : Final State.reset := by
  unfold Final
  decide

theorem witness_ApertureReachesItsInstance :
    let s := State.resetOf .default [{ Params.default with base := 0x20000 }]
    (instances s)[1]? = some (Pseg.reset { Params.default with base := 0x20000 })
      ∧ ∀ j q, (instances s)[j]? = some q → j < 1 → q.params.base + 2 ^ 17 ≤ 0x20000 + (0#17).toNat := by
  refine ⟨rfl, fun j q h hj => ?_⟩
  have : j = 0 := by omega
  subst this
  cases h
  decide

theorem witness_RenderingNeverFailsOnWrittenBytes :
    let p := complete (inFlight .default 0x2 68 frameTcp)
    (∀ j < p.record.optLen.toNat, p.record.optOff.toNat + j < p.params.bufBytes
      ∧ Memory.read p.ibuf (p.record.optOff.toNat + j) ≠ none)
    ∧ (∀ j < p.record.payLen.toNat, p.record.payOff.toNat + j < p.params.bufBytes
      ∧ Memory.read p.ibuf (p.record.payOff.toNat + j) ≠ none)
    ∧ (0x20 ≤ (0x20#8).toNat ∧ (0x7E#8).toNat ≤ 0x7E) ∧ ¬ (0x20 ≤ (0x7F#8).toNat ∧ (0x7F#8).toNat ≤ 0x7E) := by decide

theorem witness_RenderedNumbersFollowTheirForms : (decimal 0).head? = some '0' ∧ (decimal 10).head? = some '1' := by decide

/-- A list whose bytes are read cell by cell from inside the buffer. -/
theorem holdsBytes_of_cells {p : Pseg} {a n : Nat} {bs : List Byte} (hn : bs.length = n)
    (h : ∀ j < n, a + j < p.params.bufBytes ∧ Memory.read p.ibuf (a + j) = bs[j]?) : HoldsBytes p a bs := fun j _ hb =>
  have hj : j < n := hn ▸ (List.getElem?_eq_some_iff.mp hb).1
  ⟨(h j hj).1, (h j hj).2.trans hb⟩

/-- The TCP record of input FT. -/
theorem witness_RenderedTextFollowsTheLayout_tcp :
    let p := complete (inFlight .default 0x2 68 frameTcp)
    ((frameTcp.drop 54).take 12).length = p.record.optLen.toNat
      ∧ HoldsBytes p p.record.optOff.toNat ((frameTcp.drop 54).take 12)
      ∧ (frameTcp.drop 66).length = p.record.payLen.toNat
      ∧ HoldsBytes p p.record.payOff.toNat (frameTcp.drop 66) ∧ p.status.lastProto = 0 :=
  ⟨by decide, holdsBytes_of_cells (n := 12) (by decide) (by decide), by decide,
    holdsBytes_of_cells (n := 2) (by decide) (by decide), by decide⟩

/-- The UDP record of input V2. -/
theorem witness_RenderedTextFollowsTheLayout_udp :
    let p := complete (inFlight .default 0x101 16 (udpBytes 16))
    ([] : List Byte).length = p.record.optLen.toNat ∧ HoldsBytes p p.record.optOff.toNat []
      ∧ ((udpBytes 16).drop 8).length = p.record.payLen.toNat
      ∧ HoldsBytes p p.record.payOff.toNat ((udpBytes 16).drop 8) ∧ p.status.lastProto = 1 :=
  ⟨by decide, holdsBytes_of_cells (n := 0) (by decide) (by decide), by decide,
    holdsBytes_of_cells (n := 8) (by decide) (by decide), by decide⟩

end Sys2Proof.Tests
end

section
/-! SUPPORT. What the engine reports depends on the cells its body reads alone: one congruence lemma for each read and
each body, and the place of the routed segment (43_frame_router.md R208). -/

namespace Sys2Proof.Machine

/-! ### The engine's reads -/

theorem byteAt_congr {p q : Pseg} (hp : p.params = q.params) {a : Nat}
    (h : Memory.read p.ibuf a = Memory.read q.ibuf a) : byteAt p a = byteAt q a := by
  simp [byteAt, hp, h]

theorem be16_congr {p q : Pseg} (hp : p.params = q.params) {a : Nat}
    (h : ∀ j < 2, Memory.read p.ibuf (a + j) = Memory.read q.ibuf (a + j)) : be16 p a = be16 q a := by
  have h0 : byteAt p a = byteAt q a := byteAt_congr hp (h 0 (by decide))
  have h1 : byteAt p (a + 1) = byteAt q (a + 1) := byteAt_congr hp (h 1 (by decide))
  simp [be16, h0, h1]

theorem be32_congr {p q : Pseg} (hp : p.params = q.params) {a : Nat}
    (h : ∀ j < 4, Memory.read p.ibuf (a + j) = Memory.read q.ibuf (a + j)) : be32 p a = be32 q a := by
  have h0 : byteAt p a = byteAt q a := byteAt_congr hp (h 0 (by decide))
  have h1 : byteAt p (a + 1) = byteAt q (a + 1) := byteAt_congr hp (h 1 (by decide))
  have h2 : byteAt p (a + 2) = byteAt q (a + 2) := byteAt_congr hp (h 2 (by decide))
  have h3 : byteAt p (a + 3) = byteAt q (a + 3) := byteAt_congr hp (h 3 (by decide))
  simp [be32, h0, h1, h2, h3]

/-! ### The bodies -/

/-- Only the cells of the fixed TCP header that lie inside the segment matter (40_tcp_decoder.md R142, R149). -/
theorem tcpBody_congr {p q : Pseg} (hp : p.params = q.params) {b len : Nat}
    (h : ∀ j < 20, j < len → Memory.read p.ibuf (b + j) = Memory.read q.ibuf (b + j)) :
    tcpBody p b len = tcpBody q b len := by
  unfold tcpBody
  split
  · rfl
  · next hlen =>
    have half : ∀ i ≤ 18, be16 p (b + i) = be16 q (b + i) := fun i hi =>
      be16_congr hp fun j hj => by simpa [Nat.add_assoc] using h (i + j) (by omega) (by omega)
    have word : ∀ i ≤ 16, be32 p (b + i) = be32 q (b + i) := fun i hi =>
      be32_congr hp fun j hj => by simpa [Nat.add_assoc] using h (i + j) (by omega) (by omega)
    rw [show be16 p b = be16 q b from half 0 (by decide), half 2 (by decide), word 4 (by decide),
      word 8 (by decide), half 12 (by decide), half 14 (by decide), half 16 (by decide), half 18 (by decide)]

/-- Only the cells of the UDP header that lie inside the segment matter (41_udp_decoder.md R162). -/
theorem udpBody_congr {p q : Pseg} (hp : p.params = q.params) {b len : Nat}
    (h : ∀ j < 8, j < len → Memory.read p.ibuf (b + j) = Memory.read q.ibuf (b + j)) :
    udpBody p b len = udpBody q b len := by
  unfold udpBody
  split
  · rfl
  · next hlen =>
    have half : ∀ i ≤ 6, be16 p (b + i) = be16 q (b + i) := fun i hi =>
      be16_congr hp fun j hj => by simpa [Nat.add_assoc] using h (i + j) (by omega) (by omega)
    rw [show be16 p b = be16 q b from half 0 (by decide), half 2 (by decide), half 4 (by decide),
      half 6 (by decide)]

/-- Of the envelope only the eight bytes the router reads matter, and of those only the ones inside the frame
(43_frame_router.md R211). -/
theorem routeBody_congr {p q : Pseg} (hp : p.params = q.params) {len : Nat} (want : Byte)
    (h : ∀ a ∈ [12, 13, 14, 16, 17, 20, 21, 23], a < len → Memory.read p.ibuf a = Memory.read q.ibuf a) :
    routeBody p len want = routeBody q len want := by
  unfold routeBody
  split
  · rfl
  · next h14 =>
    have byte : ∀ a ∈ [12, 13, 14, 16, 17, 20, 21, 23], a < len → byteAt p a = byteAt q a :=
      fun a ha hl => byteAt_congr hp (h a ha hl)
    have etherType : be16 p 12 = be16 q 12 := by
      simp only [be16, byte 12 (by decide) (by omega), byte 13 (by decide) (by omega)]
    rw [etherType]
    refine bind_congr fun e => ?_
    split
    · rfl
    · split
      · rfl
      · next h34 =>
        have vihl : byteAt p 14 = byteAt q 14 := byte 14 (by decide) (by omega)
        have proto : byteAt p 23 = byteAt q 23 := byte 23 (by decide) (by omega)
        have iplen : be16 p 16 = be16 q 16 := by
          simp only [be16, byte 16 (by decide) (by omega), byte 17 (by decide) (by omega)]
        have frag : be16 p 20 = be16 q 20 := by
          simp only [be16, byte 20 (by decide) (by omega), byte 21 (by decide) (by omega)]
        rw [vihl, proto, iplen, frag, hp]

/-- A check of a body that ends in a value was passed. -/
theorem check_ok_iff {α : Type} {c : Prop} [Decidable c] {e : Stop} {x : Except Stop α} {r : α} :
    (if c then .error e else x) = .ok r ↔ ¬ c ∧ x = .ok r := by
  split <;> simp [*]

/-- The routed segment lies inside the frame, behind an IPv4 header of 20 to 60 bytes (43_frame_router.md R208). -/
theorem routeBody_ok_bounds {p : Pseg} {len off n : Nat} {want : Byte}
    (h : routeBody p len want = .ok (off, n)) : off + n ≤ len ∧ 34 ≤ off ∧ off ≤ 74 := by
  simp only [routeBody, bind_ok_iff, check_ok_iff, Except.ok.injEq, Prod.mk.injEq] at h
  obtain ⟨-, etherType, -, -, -, vihl, -, hvihl, hhdr, iplen, -, hiplen, hframe, proto, -, -, frag, -, -, rfl, rfl⟩ := h
  have hihl : (vihl.extractLsb' 0 4).toNat < 16 := (vihl.extractLsb' 0 4).isLt
  split <;> omega

/-- Routing and decoding the inner segment agree on two buffers that hold the same frame, whenever the decoder reads
inside its segment. -/
theorem routed_congr {p q : Pseg} (hp : p.params = q.params) {len : Nat} (want : Byte)
    (body : Pseg → Nat → Nat → Except Stop Record)
    (h : ∀ a < len, Memory.read p.ibuf a = Memory.read q.ibuf a)
    (hbody : ∀ b n, b + n ≤ len → body p b n = body q b n) :
    (routeBody p len want >>= fun seg => body p seg.1 seg.2)
      = (routeBody q len want >>= fun seg => body q seg.1 seg.2) := by
  rw [← routeBody_congr hp want fun a _ ha => h a ha]
  rcases hr : routeBody p len want with e | ⟨off, n⟩
  · rfl
  · exact hbody off n (routeBody_ok_bounds hr).1

/-! ### The whole engine -/

theorem ifInBuffer_congr {p q : Pseg} (hp : p.params = q.params) (hlen : p.latLen = q.latLen)
    {x y : Except Stop Record} (h : x = y) : ifInBuffer p x = ifInBuffer q y := by
  simp only [ifInBuffer, hp, hlen, h]

/-- The latched input decides the outcome: LEN_OUT_OF_RANGE looks at the parameters and LAT_LEN alone, and no body reads
at or above LAT_LEN (00_scope.md R7, 20_memory.md R83). -/
theorem engineBody_congr {p q : Pseg} (hp : p.params = q.params) (hop : p.latOp = q.latOp)
    (hproto : p.latProto = q.latProto) (hlen : p.latLen = q.latLen)
    (h : ∀ a < p.latLen.toNat, Memory.read p.ibuf a = Memory.read q.ibuf a) :
    engineBody p = engineBody q := by
  have tcp : ∀ b n, b + n ≤ p.latLen.toNat → tcpBody p b n = tcpBody q b n := fun b n hn =>
    tcpBody_congr hp fun j _ hj => h (b + j) (by omega)
  have udp : ∀ b n, b + n ≤ p.latLen.toNat → udpBody p b n = udpBody q b n := fun b n hn =>
    udpBody_congr hp fun j _ hj => h (b + j) (by omega)
  have decodeTcp : decodeTcpBody p = decodeTcpBody q :=
    ifInBuffer_congr hp hlen (hlen ▸ tcp 0 _ (Nat.zero_add _).le)
  have decodeUdp : decodeUdpBody p = decodeUdpBody q :=
    ifInBuffer_congr hp hlen (hlen ▸ udp 0 _ (Nat.zero_add _).le)
  have routeTcp : routeTcpBody p = routeTcpBody q :=
    ifInBuffer_congr hp hlen (hlen ▸ routed_congr hp 6 tcpBody h tcp)
  have routeUdp : routeUdpBody p = routeUdpBody q :=
    ifInBuffer_congr hp hlen (hlen ▸ routed_congr hp 17 udpBody h udp)
  simp only [engineBody, hop, hproto, decodeTcp, decodeUdp, routeTcp, routeUdp]

/-- Settles O36: no body reads at or above LAT_LEN, the router's inner segment included. -/
theorem outcomeDependsOnlyOnTheInput : Obligations.OutcomeDependsOnlyOnTheInput :=
  fun _ _ hp hop hproto hlen h => engineBody_congr hp hop hproto hlen h

end Sys2Proof.Machine
end

section
/-! SUPPORT. The accept of a DECODE or ROUTE word overwrites what earlier operations left (44_control_and_bus.md R231). -/

namespace Sys2Proof.Machine

/-- The DECODE words, and the ROUTE words where the router is built in, name an operation (30_encoding.md R103). -/
theorem decodeCmd_operation {c : Params} {w : Word}
    (hw : w = 0x00000001#32 ∨ w = 0x00000101#32
      ∨ (c.hasRouter = true ∧ (w = 0x00000002#32 ∨ w = 0x00000102#32))) :
    decodeCmd c w = .decodeTcp ∨ decodeCmd c w = .decodeUdp
      ∨ decodeCmd c w = .routeTcp ∨ decodeCmd c w = .routeUdp := by
  rcases hw with rfl | rfl | ⟨hr, rfl | rfl⟩
  · exact .inl (by simp [decodeCmd])
  · exact .inr (.inl (by simp [decodeCmd]))
  · exact .inr (.inr (.inl (by simp [decodeCmd, hr])))
  · exact .inr (.inr (.inr (by simp [decodeCmd, hr])))

/-- An idle PSEG accepts every operation (44_control_and_bus.md R230). -/
theorem writeCmd_of_operation {w : Word} {p : Pseg} (hidle : p.status.busy = false)
    (h : decodeCmd p.params w = .decodeTcp ∨ decodeCmd p.params w = .decodeUdp
      ∨ decodeCmd p.params w = .routeTcp ∨ decodeCmd p.params w = .routeUdp) :
    writeCmd w p = acceptCmd w p := by
  unfold writeCmd issueCmd
  rcases h with h | h | h | h <;> simp [h, hidle]

/-- Completions of instances in flight with one outcome report alike, since neither `finish` nor a model fault touches the
record and a model fault leaves STATUS too. -/
theorem complete_reports_congr {p q : Pseg} (hbody : engineBody p = engineBody q)
    (hbusy : p.status.busy = q.status.busy) (hfault : p.fault = q.fault) (hrec : p.record = q.record)
    (hcode : p.status.code = q.status.code) (hvalid : p.status.valid = q.status.valid) :
    (complete p).record = (complete q).record ∧ (complete p).status.code = (complete q).status.code
      ∧ (complete p).status.valid = (complete q).status.valid ∧ (complete p).fault = (complete q).fault := by
  unfold complete
  rw [hbody, hbusy, hfault]
  split
  · rcases engineBody q with _ | ((c | f) | r)
    · exact ⟨hrec, hcode, hvalid, hfault⟩
    · exact ⟨hrec, rfl, rfl, hfault⟩
    · exact ⟨hrec, hcode, hvalid, rfl⟩
    · exact ⟨rfl, rfl, rfl, hfault⟩
  · exact ⟨hrec, hcode, hvalid, hfault⟩

/-- Settles O38: after the accept the two instances agree on everything the completion reads and reports. -/
theorem outcomeForgetsEarlierOperations : Obligations.OutcomeForgetsEarlierOperations := by
  intro p q w hp hbuf hlen hpidle hqidle hpfault hqfault hw
  have hop := decodeCmd_operation hw
  rw [writeCmd_of_operation hpidle hop, writeCmd_of_operation hqidle (hp ▸ hop)]
  have hbody : engineBody (acceptCmd w p) = engineBody (acceptCmd w q) :=
    engineBody_congr hp rfl rfl hlen fun a _ => by simp [hbuf]
  exact complete_reports_congr hbody rfl (hpfault.trans hqfault.symm) rfl rfl rfl

end Sys2Proof.Machine
end

section
/-! SUPPORT. No step changes the parameters of a PSEG (00_scope.md R8 to R11). -/

namespace Sys2Proof.Machine

@[simp] theorem complete_params (p : Pseg) : (complete p).params = p.params := by
  rcases complete_cases p with ⟨h, -⟩ | ⟨-, -, ⟨_, -, h⟩ | ⟨_, -, h⟩ | ⟨_, -, h⟩⟩ <;> simp [h]

/-- The parameters of the instances, in the order of their numbers. -/
def paramsList (s : State) : List Params := (instances s).map (fun p => p.params)

theorem paramsList_of_cur {s t : State} (hb : t.before = s.before) (ha : t.after = s.after)
    (hc : t.cur.params = s.cur.params) : paramsList t = paramsList s := by
  simp [paramsList, instances, hb, ha, hc]

theorem paramsList_onCur {f : Pseg → Pseg} (hf : ∀ p, (f p).params = p.params) (s : State) :
    paramsList (onCur f s) = paramsList s := paramsList_of_cur rfl rfl (hf s.cur)

theorem paramsList_select {k : Nat} {s t : State} (h : select k s = some t) :
    paramsList t = paramsList s := by
  obtain ⟨hinst, -⟩ := select_spec h
  simp [paramsList, hinst]

theorem paramsList_resetAll (s : State) : paramsList (resetAll s) = paramsList s := by
  simp [paramsList, instances, Function.comp_def]

theorem paramsList_runAccess {k : Nat} {req : BitVec 20} {w : Word} {s t : State}
    (h : runAccess k req w s = .next t) : paramsList t = paramsList s := by
  unfold runAccess at h
  split at h
  · cases h
  · next u hu =>
    rw [← paramsList_select hu]
    split at h
    · next i _ =>
      obtain ⟨hb, ha, -, hc, -⟩ := exec_frame h
      exact paramsList_of_cur hb ha (hc ▸ accessEffect_params i u.cur)
    · cases h
      exact paramsList_onCur (raiseFault_params _) u

theorem paramsList_runEngine {k : Nat} {s t : State} (h : runEngine k s = .next t) :
    paramsList t = paramsList s := by
  unfold runEngine at h
  split at h
  · cases h
  · next u hu =>
    cases h
    rw [paramsList_onCur complete_params, paramsList_select hu]

theorem paramsList_runIdle {s t : State} (h : runIdle s = .next t) : paramsList t = paramsList s := by
  unfold runIdle at h
  split at h
  · exact paramsList_runEngine h
  · cases h
    rfl

theorem paramsList_step {s t : State} (h : step s = .next t) : paramsList t = paramsList s := by
  rcases step_cases s with ⟨ts, -, hs⟩ | ⟨k, req, w, ts, -, -, hs⟩ | ⟨k, ts, -, -, hs⟩ | ⟨-, -, hs⟩ | ⟨f, -, -, hs⟩
  · cases hs.symm.trans h
    exact paramsList_resetAll { s with turns := ts }
  · exact paramsList_runAccess (s := { s with turns := ts }) (hs.symm.trans h)
  · exact paramsList_runEngine (s := { s with turns := ts }) (hs.symm.trans h)
  · exact paramsList_runIdle (hs.symm.trans h)
  · cases hs.symm.trans h

/-- Settles O47: by the turns a step can take. -/
theorem parametersNeverChange : Obligations.ParametersNeverChange := fun _ _ h => paramsList_step h

end Sys2Proof.Machine
end

section
/-! SUPPORT. What the record of a body satisfies and which codes a body reports (10_state.md R36, R38; 40_tcp_decoder.md R147;
41_udp_decoder.md R166). -/

namespace Sys2Proof.Machine

/-- BUF_BYTES is at least 64 (00_scope.md R8). -/
theorem le_bufBytes (c : Params) : 64 ≤ c.bufBytes := Nat.le_add_left 64 c.bufExtra.val

/-- BUF_BYTES is at most 65536 (00_scope.md R8). -/
theorem bufBytes_le (c : Params) : c.bufBytes ≤ 65536 := by
  have := c.bufExtra.isLt
  unfold Params.bufBytes
  omega

/-! ### No body finishes with code OK -/

/-- A check of a body stops: it failed, or what follows it stops. -/
theorem check_error_iff {α : Type} {c : Prop} [Decidable c] {e e' : Stop} {x : Except Stop α} :
    (if c then .error e else x) = .error e' ↔ (c ∧ e = e') ∨ (¬ c ∧ x = .error e') := by
  split <;> simp [*]

/-- The engine's reads stop only with the model fault (00_scope.md R15). -/
theorem byteAt_ne_finish (p : Pseg) (a : Nat) (c : StatusCode) : byteAt p a ≠ .error (.finish c) := by
  simp [byteAt_error_iff]

theorem be16_ne_finish (p : Pseg) (a : Nat) (c : StatusCode) : be16 p a ≠ .error (.finish c) := by
  simp [be16, bind_error_iff, byteAt_ne_finish]

theorem be32_ne_finish (p : Pseg) (a : Nat) (c : StatusCode) : be32 p a ≠ .error (.finish c) := by
  simp [be32, bind_error_iff, byteAt_ne_finish]

theorem tcpBody_ne_finish_ok (p : Pseg) (b len : Nat) : tcpBody p b len ≠ .error (.finish .ok) := by
  simp only [tcpBody, tcpChecks, ne_eq, bind_error_iff, check_error_iff]
  simp [be16_ne_finish, be32_ne_finish]

theorem udpBody_ne_finish_ok (p : Pseg) (b len : Nat) : udpBody p b len ≠ .error (.finish .ok) := by
  simp only [udpBody, udpChecks, ne_eq, bind_error_iff, check_error_iff]
  simp [be16_ne_finish]

theorem routeBody_ne_finish_ok (p : Pseg) (len : Nat) (want : Byte) :
    routeBody p len want ≠ .error (.finish .ok) := by
  simp only [routeBody, ne_eq, bind_error_iff, check_error_iff]
  simp [be16_ne_finish, byteAt_ne_finish]

/-- The two operations on one decoder: on the input itself, and on the segment the router finds (44_control_and_bus.md R232). -/
def RunsDecoder (p : Pseg) (want : Byte) (body : Nat → Nat → Except Stop Record) (v : Except Stop Record) : Prop :=
  v = ifInBuffer p (body 0 p.latLen.toNat)
    ∨ v = ifInBuffer p (routeBody p p.latLen.toNat want >>= fun seg => body seg.1 seg.2)

/-- The engine runs the decoder that LAT_PROTO names (44_control_and_bus.md R232). -/
theorem engineBody_runsDecoder {p : Pseg} {v : Except Stop Record} (h : engineBody p = some v) :
    (p.latProto = 0 ∧ RunsDecoder p 6 (tcpBody p) v) ∨ (p.latProto = 1 ∧ RunsDecoder p 17 (udpBody p) v) := by
  have proto_one : ∀ x : BitVec 1, ¬ x = 0 → x = 1 := by decide
  unfold engineBody at h
  split_ifs at h with _ hproto _ hproto <;> cases h
  · exact .inl ⟨hproto, .inl rfl⟩
  · exact .inr ⟨proto_one _ ‹_›, .inl rfl⟩
  · exact .inl ⟨‹_›, .inr rfl⟩
  · exact .inr ⟨proto_one _ ‹_›, .inr rfl⟩

theorem RunsDecoder.ne_finish_ok {p : Pseg} {want : Byte} {body : Nat → Nat → Except Stop Record}
    {v : Except Stop Record} (h : RunsDecoder p want body v) (hbody : ∀ b n, body b n ≠ .error (.finish .ok)) :
    v ≠ .error (.finish .ok) := by
  rcases h with rfl | rfl <;>
    simp [ifInBuffer, check_error_iff, bind_error_iff, routeBody_ne_finish_ok, hbody]

/-- A failed completion has a code other than OK (60_exceptions.md R264). -/
theorem engineBody_finish_ne_ok {p : Pseg} {c : StatusCode} (h : engineBody p = some (.error (.finish c))) :
    c ≠ .ok := by
  rintro rfl
  rcases engineBody_runsDecoder h with ⟨-, hrun⟩ | ⟨-, hrun⟩
  · exact hrun.ne_finish_ok (tcpBody_ne_finish_ok p) rfl
  · exact hrun.ne_finish_ok (udpBody_ne_finish_ok p) rfl

/-! ### The record a body ends with -/

/-- The record of `TcpBody` on a segment the 17-bit descriptors hold (40_tcp_decoder.md R147). -/
theorem tcpBody_ok_record {p : Pseg} {b len : Nat} {r : Record} (hb : b + len ≤ 65536)
    (h : tcpBody p b len = .ok r) : TcpRecordInv r ∧ r.segOff.toNat = b ∧ r.segLen.toNat = len := by
  simp only [tcpBody, tcpChecks, bind_ok_iff, check_ok_iff, Except.ok.injEq] at h
  obtain ⟨hlen, _, -, _, -, _, -, _, -, w, -, _, -, _, -, _, -, hdoff, hhdr, hrsvd, rfl⟩ := h
  have hw : (w.extractLsb' 12 4).toNat < 16 := (w.extractLsb' 12 4).isLt
  refine ⟨⟨not_not.mp hrsvd, not_lt.mp hdoff, rfl, ?_⟩, ?_⟩ <;> simp only [BitVec.toNat_ofNat] <;> omega

/-- The record of `UdpBody` on a segment the 17-bit descriptors hold (41_udp_decoder.md R166). -/
theorem udpBody_ok_record {p : Pseg} {b len : Nat} {r : Record} (hb : b + len ≤ 65536)
    (h : udpBody p b len = .ok r) : UdpRecordInv r ∧ r.segOff.toNat = b ∧ r.segLen.toNat = len := by
  simp only [udpBody, udpChecks, bind_ok_iff, check_ok_iff, Except.ok.injEq] at h
  obtain ⟨hlen, _, -, _, -, ulen, -, _, -, hmin, hulen, rfl⟩ := h
  refine ⟨⟨?_, ?_, ?_, rfl, rfl, rfl, rfl, rfl, rfl, rfl, rfl, rfl⟩, ?_⟩ <;>
    simp only [BitVec.toNat_ofNat] <;> omega

/-- A decoder that answers ran on a segment inside the buffer: a routed one lies inside the frame (43_frame_router.md R208). -/
theorem RunsDecoder.ok_segment {p : Pseg} {want : Byte} {body : Nat → Nat → Except Stop Record} {r : Record}
    (h : RunsDecoder p want body (.ok r)) : ∃ b n, b + n ≤ p.params.bufBytes ∧ body b n = .ok r := by
  rcases h with h | h <;> obtain ⟨hlen, hbody⟩ := check_ok_iff.mp h.symm
  · exact ⟨0, p.latLen.toNat, by omega, hbody⟩
  · obtain ⟨⟨b, n⟩, hseg, hrun⟩ := bind_ok_iff.mp hbody
    obtain ⟨hinside, -⟩ := routeBody_ok_bounds hseg
    exact ⟨b, n, by omega, hrun⟩

/-- The record of a completion lies inside the buffer and is consistent for the protocol of its operation. -/
theorem engineBody_ok_record {p : Pseg} {r : Record} (h : engineBody p = some (.ok r)) :
    r.segOff.toNat + r.segLen.toNat ≤ p.params.bufBytes
      ∧ (p.latProto = 0 → TcpRecordInv r) ∧ (p.latProto = 1 → UdpRecordInv r) := by
  have hbuf := bufBytes_le p.params
  rcases engineBody_runsDecoder h with ⟨hproto, hrun⟩ | ⟨hproto, hrun⟩ <;>
    obtain ⟨b, n, hseg, hbody⟩ := hrun.ok_segment
  · obtain ⟨hrec, rfl, rfl⟩ := tcpBody_ok_record (hseg.trans hbuf) hbody
    exact ⟨hseg, fun _ => hrec, by simp [hproto]⟩
  · obtain ⟨hrec, rfl, rfl⟩ := udpBody_ok_record (hseg.trans hbuf) hbody
    exact ⟨hseg, by simp [hproto], fun _ => hrec⟩

end Sys2Proof.Machine
end

section
/-! SUPPORT. Every step keeps the invariant: STATUS by each of its updates, one PSEG by each operation, the machine by each
turn (10_state.md R36, R38, R50, R52). -/

namespace Sys2Proof.Machine

/-! ### STATUS -/

theorem statusInv_zero : StatusInv .zero := by simp [StatusInv]

theorem statusInv_accepted (t : Status) (op : BitVec 4) (proto : BitVec 1) : StatusInv (t.accepted op proto) := by
  simp [StatusInv]

theorem statusInv_illegalWord {t : Status} (op : BitVec 4) (hidle : t.busy = false) :
    StatusInv (t.illegalWord op) := by simp [StatusInv, hidle]

theorem statusInv_failed (t : Status) {c : StatusCode} (hc : c ≠ .ok) : StatusInv (t.failed c) := by
  simp [StatusInv, hc]

theorem statusInv_committed (t : Status) : StatusInv t.committed := by simp [StatusInv]

/-- While BUSY = 1 there is no valid record (10_state.md R36). -/
theorem StatusInv.not_valid {t : Status} (h : StatusInv t) (hbusy : t.busy = true) : t.valid = false := by
  obtain ⟨hb, -⟩ := h
  obtain ⟨-, -, hvalid, -⟩ := hb hbusy
  exact hvalid

/-! ### The parts of a PSEG -/

/-- Without a valid record the record registers need only be 0. -/
theorem recordInv_of_not_valid {p : Pseg} (hvalid : p.status.valid = false) (hrec : p.record = .zero) :
    RecordInv p := by simp [RecordInv, hvalid, hrec]

/-- An idle engine's latches are free. -/
theorem latchInv_of_idle {p : Pseg} (hidle : p.status.busy = false) : LatchInv p := by simp [LatchInv, hidle]

/-- A word that names an operation has OP 0x1, or OP 0x2 where the router is built in (30_encoding.md R103). -/
theorem op_of_operation {c : Params} {w : Word}
    (h : decodeCmd c w = .decodeTcp ∨ decodeCmd c w = .decodeUdp
      ∨ decodeCmd c w = .routeTcp ∨ decodeCmd c w = .routeUdp) :
    w.extractLsb' 0 4 = 0x1 ∨ (w.extractLsb' 0 4 = 0x2 ∧ c.hasRouter = true) := by
  unfold decodeCmd at h
  split_ifs at h <;> simp_all

/-! ### One PSEG -/

theorem psegInv_reset (c : Params) : PsegInv (Pseg.reset c) :=
  ⟨statusInv_zero, recordInv_of_not_valid rfl rfl, latchInv_of_idle rfl, by simp [BufferInv, Pseg.reset]⟩

/-- No part of the invariant looks at the FAULT mark. -/
theorem psegInv_raiseFault {p : Pseg} (f : Fault) (h : PsegInv p) : PsegInv (raiseFault f p) := h

theorem psegInv_storeByte {p : Pseg} {a : Nat} (b : Byte) (ha : a < p.params.bufBytes) (h : PsegInv p) :
    PsegInv (storeByte a b p) := by
  obtain ⟨hstatus, hrec, hlatch, hwf, hwithin⟩ := h
  exact ⟨hstatus, hrec, hlatch, Memory.write_keeps_wf a b hwf, Memory.write_keeps_within b ha hwithin⟩

/-- A CMD write keeps the invariant, in each of the five cases of 44_control_and_bus.md R230. -/
theorem psegInv_writeCmd {p : Pseg} (w : Word) (h : PsegInv p) : PsegInv (writeCmd w p) := by
  have hall := h
  obtain ⟨hstatus, hrec, hlatch, hbuf⟩ := h
  rcases writeCmd_cases w p with
    ⟨-, hw⟩ | ⟨-, -, hw⟩ | ⟨hidle, -, hw⟩ | ⟨hidle, -, hw⟩ | ⟨-, hop, hw⟩ <;> rw [hw]
  · exact hall
  · exact ⟨hstatus, hrec, hlatch, hbuf⟩
  · exact ⟨statusInv_zero, recordInv_of_not_valid rfl rfl, latchInv_of_idle rfl, hbuf⟩
  · exact ⟨statusInv_illegalWord _ hidle, recordInv_of_not_valid rfl rfl, latchInv_of_idle hidle, hbuf⟩
  · exact ⟨statusInv_accepted _ _ _, recordInv_of_not_valid rfl rfl, fun _ => ⟨rfl, rfl, op_of_operation hop⟩, hbuf⟩

theorem psegInv_writeCsr {p : Pseg} (r : Csr) (w : Word) (h : PsegInv p) : PsegInv (writeCsr r w p) := by
  cases r
  case cmd => exact psegInv_writeCmd w h
  all_goals exact h

/-- Every access keeps the invariant of the PSEG it reaches. -/
theorem psegInv_accessEffect {p : Pseg} (i : Instr) (h : PsegInv p) : PsegInv (accessEffect i p).1 := by
  cases i with
  | nop proto => exact psegInv_writeCmd _ h
  | decodeTcp => exact psegInv_writeCmd _ h
  | decodeUdp => exact psegInv_writeCmd _ h
  | routeTcp => exact psegInv_writeCmd _ h
  | routeUdp => exact psegInv_writeCmd _ h
  | clear proto => exact psegInv_writeCmd _ h
  | csrRd32 r => exact h
  | csrWr32 r w => exact psegInv_writeCsr r w h
  | ibufRd8 off =>
    simp only [accessEffect]
    split
    · exact psegInv_raiseFault _ h
    · split
      · exact psegInv_raiseFault _ h
      · exact h
  | ibufWr8 off b =>
    simp only [accessEffect]
    split
    · exact psegInv_raiseFault _ h
    · next hin =>
      split
      · exact psegInv_raiseFault _ h
      · exact psegInv_storeByte b (not_le.mp hin) h

/-- A completion keeps the invariant: a failed one leaves the record that the accept cleared, a successful one writes a
record of the protocol that the latches name. -/
theorem psegInv_complete {p : Pseg} (h : PsegInv p) : PsegInv (complete p) := by
  rcases complete_cases p with
    ⟨hc, -⟩ | ⟨hbusy, -, ⟨r, hbody, hc⟩ | ⟨c, hbody, hc⟩ | ⟨f, -, hc⟩⟩ <;> rw [hc]
  · exact h
  · obtain ⟨-, -, hlatch, hbuf⟩ := h
    obtain ⟨-, hproto, -⟩ := hlatch hbusy
    obtain ⟨hinside, htcp, hudp⟩ := engineBody_ok_record hbody
    have hrec : RecordInv (commitOp r p) :=
      ⟨by simp, fun _ => hinside, fun _ h0 => htcp (hproto.symm.trans h0), fun _ h1 => hudp (hproto.symm.trans h1)⟩
    exact ⟨statusInv_committed _, hrec, latchInv_of_idle rfl, hbuf⟩
  · obtain ⟨hstatus, ⟨hzero, -⟩, -, hbuf⟩ := h
    exact ⟨statusInv_failed _ (engineBody_finish_ne_ok hbody),
      recordInv_of_not_valid rfl (hzero (hstatus.not_valid hbusy)), latchInv_of_idle rfl, hbuf⟩
  · exact psegInv_raiseFault f h

/-! ### The machine -/

/-- The invariant is kept where every PSEG but the addressed one stays. -/
theorem inv_of_cur {s t : State} (h : Inv s) (hbefore : t.before = s.before) (hafter : t.after = s.after)
    (hcur : PsegInv s.cur → PsegInv t.cur) : Inv t := by
  intro p hp
  simp only [instances, hbefore, hafter, List.mem_append, List.mem_cons] at hp
  rcases hp with hp | rfl | hp
  · exact h p (by simp [instances, hp])
  · exact hcur (h s.cur (by simp [instances]))
  · exact h p (by simp [instances, hp])

theorem inv_select {k : Nat} {s t : State} (hs : select k s = some t) (h : Inv s) : Inv t := by
  obtain ⟨hinst, -⟩ := select_spec hs
  simpa only [Inv, hinst] using h

theorem inv_resetAll (s : State) : Inv (resetAll s) := by
  have hall : instances (resetAll s) = (instances s).map resetPseg := by simp [instances]
  intro p hp
  obtain ⟨q, -, rfl⟩ := List.mem_map.mp (hall ▸ hp)
  exact psegInv_reset q.params

theorem inv_runAccess {k : Nat} {req : BitVec 20} {w : Word} {s t : State} (h : Inv s)
    (hrun : runAccess k req w s = .next t) : Inv t := by
  unfold runAccess at hrun
  split at hrun
  · cases hrun
  · next u hu =>
    split at hrun
    · next i _ =>
      obtain ⟨hbefore, hafter, -, hcur, -⟩ := exec_frame hrun
      exact inv_of_cur (inv_select hu h) hbefore hafter fun hinv => hcur ▸ psegInv_accessEffect i hinv
    · cases hrun
      exact inv_of_cur (inv_select hu h) rfl rfl (psegInv_raiseFault _)

theorem inv_runEngine {k : Nat} {s t : State} (h : Inv s) (hrun : runEngine k s = .next t) : Inv t := by
  unfold runEngine at hrun
  split at hrun
  · cases hrun
  · next u hu =>
    cases hrun
    exact inv_of_cur (inv_select hu h) rfl rfl psegInv_complete

theorem inv_runIdle {s t : State} (h : Inv s) (hrun : runIdle s = .next t) : Inv t := by
  unfold runIdle at hrun
  split at hrun
  · exact inv_runEngine h hrun
  · cases hrun
    exact h

/-- Settles O45: by the turns a step can take. -/
theorem stepKeepsTheInvariant : Obligations.StepKeepsTheInvariant := by
  intro s t h hstep
  rcases step_cases s with ⟨ts, -, hs⟩ | ⟨k, req, w, ts, -, -, hs⟩ | ⟨k, ts, -, -, hs⟩ | ⟨-, -, hs⟩ | ⟨f, -, -, hs⟩
  · cases hs.symm.trans hstep
    exact inv_resetAll _
  · exact inv_runAccess (s := { s with turns := ts }) h (hs.symm.trans hstep)
  · exact inv_runEngine (s := { s with turns := ts }) h (hs.symm.trans hstep)
  · exact inv_runIdle h (hs.symm.trans hstep)
  · cases hs.symm.trans hstep

/-- Settles O46: every PSEG right after reset is a reset one. -/
theorem resetMeetsTheInvariant : Obligations.ResetMeetsTheInvariant := by
  have hreset : ∀ (c : Params) (cs : List Params), Inv (State.resetOf c cs) := by
    intro c cs p hp
    obtain ⟨d, -, rfl⟩ : ∃ d ∈ c :: cs, Pseg.reset d = p := List.mem_map.mp hp
    exact psegInv_reset d
  exact ⟨hreset .default [], hreset⟩

end Sys2Proof.Machine
end

section
/-! SUPPORT. What the registers read as: STATUS bit by bit, the two constants, every register right after reset, and CTRL and LEN
after a write (10_state.md R33 to R39, R54). -/

namespace Sys2Proof.Machine

/-! ### STATUS -/

/-- A bit of a word is a digit of its number. -/
theorem toNat_getLsbD {n : Nat} (x : BitVec n) (i : Nat) : (x.getLsbD i).toNat = x.toNat / 2 ^ i % 2 := by
  rw [← BitVec.testBit_toNat, Nat.toNat_testBit]

theorem getLsbD_of_digit {n : Nat} {x : BitVec n} {i : Nat} {b : Bool} (h : x.toNat / 2 ^ i % 2 = b.toNat) :
    x.getLsbD i = b := by
  have toNat_inj : ∀ a b : Bool, a.toNat = b.toNat → a = b := by decide
  exact toNat_inj _ _ ((toNat_getLsbD x i).trans h)

/-- Settles O9: each field is a digit of the number `statusWord_toNat` gives, the fields below it being too small to
carry. -/
theorem statusWordLayout : Obligations.StatusWordLayout := by
  intro p
  dsimp only [csrValue]
  have hbusy := p.status.busy.toNat_lt
  have hdone := p.status.done.toNat_lt
  have herr := p.status.err.toNat_lt
  have hvalid := p.status.valid.toNat_lt
  have hoverrun := p.status.overrun.toNat_lt
  have hcode := (codeValue p.status.code).isLt
  have hop := p.status.lastOp.isLt
  have hproto := p.status.lastProto.isLt
  refine ⟨getLsbD_of_digit ?_, getLsbD_of_digit ?_, getLsbD_of_digit ?_, getLsbD_of_digit ?_, getLsbD_of_digit ?_,
    BitVec.eq_of_toNat_eq ?_, BitVec.eq_of_toNat_eq ?_, BitVec.eq_of_toNat_eq ?_, BitVec.eq_of_toNat_eq ?_,
    BitVec.eq_of_toNat_eq ?_⟩ <;>
    simp only [extract_toNat, statusWord_toNat, BitVec.ofNat_eq_ofNat, BitVec.toNat_ofNat] <;> omega

/-! ### The constants -/

/-- The two bits of CAPS (10_state.md R33). -/
theorem capsWord_bits (c : Params) :
    (capsWord c).getLsbD 0 = c.hasRouter ∧ (capsWord c).getLsbD 1 = (c.hasRouter && c.routeLenFromIp)
      ∧ (capsWord c).extractLsb' 2 30 = 0 := by
  unfold capsWord
  cases c.hasRouter <;> cases c.routeLenFromIp <;> decide

/-- BUFSIZE reads BUF_BYTES (10_state.md R35), which its 32 bits hold. -/
theorem bufsize_toNat (p : Pseg) : (csrValue p .bufsize).toNat = p.params.bufBytes := by
  have := bufBytes_le p.params
  simp only [csrValue, BitVec.toNat_ofNat]
  omega

/-- CAPS and BUFSIZE are read from the parameters alone. -/
theorem csrValue_constant {p q : Pseg} {r : Csr} (hr : r = .caps ∨ r = .bufsize) (h : p.params = q.params) :
    csrValue p r = csrValue q r := by
  rcases hr with rfl | rfl <;> simp only [csrValue, h]

/-- Settles O10: the two constants are read from the parameters, which nothing changes. -/
theorem capsAndBufsizeAreConstants : Obligations.CapsAndBufsizeAreConstants := by
  refine ⟨fun p => ?_, fun p r hr => ⟨csrValue_constant hr rfl, csrValue_constant hr (complete_params p)⟩, ?_⟩
  · obtain ⟨hrouter, hlen, hreserved⟩ := capsWord_bits p.params
    exact ⟨hrouter, hlen, hreserved, bufsize_toNat p, le_bufBytes _, bufBytes_le _⟩
  · intro i s t r hr h
    obtain ⟨-, -, -, hcur, -⟩ := exec_frame h
    exact csrValue_constant hr (hcur ▸ accessEffect_params i s.cur)

/-! ### CTRL and LEN -/

/-- A read after a write returns the register as the write left it. -/
theorem observed_write_read {r : Csr} {w : Word} {s t u : State} (hwrite : exec (.csrWr32 r w) s = .next t)
    (hread : exec (.csrRd32 r) t = .next u) :
    u.observed = s.observed ++ [csrValue (writeCsr r w s.cur) r] := by
  obtain ⟨-, -, -, hcur, hsame⟩ := exec_frame hwrite
  obtain ⟨-, -, -, -, hobserved⟩ := exec_frame hread
  simp [hobserved, hsame, hcur, accessEffect]

/-- CTRL reads IRQ_EN (10_state.md R37). -/
theorem ctrl_toNat (p : Pseg) : (csrValue p .ctrl).toNat = p.irqEn.toNat := by
  cases h : p.irqEn <;> simp [csrValue, h]

/-- Settles O12: LEN keeps the whole word, CTRL the bit IRQ_EN. -/
theorem ctrlAndLenReadBack : Obligations.CtrlAndLenReadBack := by
  intro s t u w
  refine ⟨fun hwrite hread => observed_write_read hwrite hread,
    fun hwrite hread => ⟨_, observed_write_read hwrite hread, ?_⟩⟩
  calc (csrValue (writeCsr .ctrl w s.cur) .ctrl).toNat
      = (w.getLsbD 0).toNat := ctrl_toNat _
    _ = w.toNat / 2 ^ 0 % 2 := toNat_getLsbD w 0
    _ = w.toNat % 2 := by rw [pow_zero, Nat.div_one]

/-! ### Right after reset -/

/-- Every register but the two constants resets to 0 (10_state.md R54). -/
theorem csrValue_reset (c : Params) {r : Csr} (hcaps : r ≠ .caps) (hbufsize : r ≠ .bufsize) :
    csrValue (Pseg.reset c) r = 0 := by
  cases r
  case caps => exact absurd rfl hcaps
  case bufsize => exact absurd rfl hbufsize
  case status => exact BitVec.eq_of_toNat_eq (statusWord_toNat .zero)
  all_goals rfl

/-- Settles O24: the reset state is the reset of one PSEG, which is idle and so accepts an operation. -/
theorem resetStateReadsZero : Obligations.ResetStateReadsZero := by
  refine ⟨fun r hcaps hbufsize => csrValue_reset .default hcaps hbufsize, rfl, rfl, fun _ => rfl, rfl, rfl, ?_⟩
  have haccept : writeCmd 0x00000001#32 State.reset.cur = acceptCmd 0x00000001#32 State.reset.cur :=
    writeCmd_of_operation rfl (decodeCmd_operation (.inl rfl))
  exact congrArg (fun p => (.next { State.reset with cur := p } : Host.Outcome State Fault Refusal)) haccept

end Sys2Proof.Machine
end

section
/-! SUPPORT. Where a body stops: at an unwritten cell inside the latched input, and nowhere outside it (20_memory.md R83). -/

namespace Sys2Proof.Machine

/-- A computation that stops with the model fault only at a cell below `n`, one that holds no byte. -/
def FaultsBelow {α : Type} (p : Pseg) (n : Nat) (x : Except Stop α) : Prop :=
  ∀ a, x = .error (.raise (.uninitialisedRead a)) → a < n ∧ (p.params.bufBytes ≤ a ∨ Memory.read p.ibuf a = none)

namespace FaultsBelow

variable {α β : Type} {p : Pseg} {n : Nat}

theorem ok (v : α) : FaultsBelow p n (.ok v : Except Stop α) := nofun

/-- A check that fails finishes with a code, which is no fault. -/
theorem check {c : Prop} [Decidable c] {code : StatusCode} {x : Except Stop α} (h : ¬ c → FaultsBelow p n x) :
    FaultsBelow p n (if c then .error (.finish code) else x) := by
  intro a ha
  rcases check_error_iff.mp ha with ⟨-, hcode⟩ | ⟨hc, hx⟩
  · cases hcode
  · exact h hc a hx

theorem bind {x : Except Stop α} {f : α → Except Stop β} (hx : FaultsBelow p n x)
    (hf : ∀ v, x = .ok v → FaultsBelow p n (f v)) : FaultsBelow p n (x >>= f) := by
  intro a ha
  rcases bind_error_iff.mp ha with hstop | ⟨v, hv, hstop⟩
  · exact hx a hstop
  · exact hf v hv a hstop

/-! ### The engine's reads -/

theorem byteAt {a : Nat} (h : a < n) : FaultsBelow p n (byteAt p a) := by
  intro a' ha'
  obtain ⟨heq, hcell⟩ := byteAt_error_iff.mp ha'
  cases heq
  exact ⟨h, hcell⟩

theorem be16 {a : Nat} (h : a + 1 < n) : FaultsBelow p n (be16 p a) :=
  .bind (.byteAt (by omega)) fun _ _ => .bind (.byteAt h) fun _ _ => .ok _

theorem be32 {a : Nat} (h : a + 3 < n) : FaultsBelow p n (be32 p a) :=
  .bind (.byteAt (by omega)) fun _ _ => .bind (.byteAt (by omega)) fun _ _ =>
    .bind (.byteAt (by omega)) fun _ _ => .bind (.byteAt h) fun _ _ => .ok _

/-! ### The bodies -/

/-- `TcpBody` reads the 20 fixed bytes, and only of a segment that has them (40_tcp_decoder.md R148). -/
theorem tcpBody {b len : Nat} (h : b + len ≤ n) : FaultsBelow p n (tcpBody p b len) :=
  .check fun hlen =>
    .bind (.be16 (by omega)) fun _ _ => .bind (.be16 (by omega)) fun _ _ =>
    .bind (.be32 (by omega)) fun _ _ => .bind (.be32 (by omega)) fun _ _ =>
    .bind (.be16 (by omega)) fun _ _ => .bind (.be16 (by omega)) fun _ _ =>
    .bind (.be16 (by omega)) fun _ _ => .bind (.be16 (by omega)) fun _ _ =>
    .check fun _ => .check fun _ => .check fun _ => .ok _

/-- `UdpBody` reads its 8 bytes, and only of a segment that has them (41_udp_decoder.md R167). -/
theorem udpBody {b len : Nat} (h : b + len ≤ n) : FaultsBelow p n (udpBody p b len) :=
  .check fun hlen =>
    .bind (.be16 (by omega)) fun _ _ => .bind (.be16 (by omega)) fun _ _ =>
    .bind (.be16 (by omega)) fun _ _ => .bind (.be16 (by omega)) fun _ _ =>
    .check fun _ => .check fun _ => .ok _

/-- The router reads the first 14 and then the first 34 bytes of a frame only when the frame has them (43_frame_router.md
R203 to R207). -/
theorem routeBody (want : Byte) : FaultsBelow p n (routeBody p n want) :=
  .check fun h14 => .bind (.be16 (by omega)) fun _ _ => .check fun _ => .check fun h34 =>
    .bind (.byteAt (by omega)) fun _ _ => .check fun _ => .check fun _ =>
    .bind (.be16 (by omega)) fun _ _ => .check fun _ => .check fun _ =>
    .bind (.byteAt (by omega)) fun _ _ => .check fun _ =>
    .bind (.be16 (by omega)) fun _ _ => .check fun _ => .ok _

end FaultsBelow

/-- Both operations on a decoder fault inside the input when the decoder faults inside its segment: a routed segment lies
inside the frame (43_frame_router.md R208). -/
theorem RunsDecoder.fault_inside {p : Pseg} {want : Byte} {body : Nat → Nat → Except Stop Record} {a : Nat}
    (h : RunsDecoder p want body (.error (.raise (.uninitialisedRead a))))
    (hbody : ∀ b len, b + len ≤ p.latLen.toNat → FaultsBelow p p.latLen.toNat (body b len)) :
    a < p.latLen.toNat ∧ a < p.params.bufBytes ∧ Memory.read p.ibuf a = none := by
  suffices hfault : p.latLen.toNat ≤ p.params.bufBytes ∧ a < p.latLen.toNat
      ∧ (p.params.bufBytes ≤ a ∨ Memory.read p.ibuf a = none) by
    obtain ⟨hlen, ha, hcell⟩ := hfault
    have hin : a < p.params.bufBytes := by omega
    exact ⟨ha, hin, hcell.resolve_left (not_le.mpr hin)⟩
  rcases h with h | h <;> rcases check_error_iff.mp h.symm with ⟨-, hcode⟩ | ⟨hlen, hstop⟩
  · cases hcode
  · exact ⟨not_lt.mp hlen, hbody 0 _ (by omega) a hstop⟩
  · cases hcode
  · have hrouted := FaultsBelow.bind (.routeBody want) fun seg hseg =>
      hbody seg.1 seg.2 (routeBody_ok_bounds hseg).1
    exact ⟨not_lt.mp hlen, hrouted a hstop⟩

/-- Settles O35: both decoders read inside their segment, and the segment lies inside the input. -/
theorem engineReadsInsideTheInput : Obligations.EngineReadsInsideTheInput := by
  intro p a h
  rcases engineBody_runsDecoder h with ⟨-, hrun⟩ | ⟨-, hrun⟩
  · exact hrun.fault_inside fun _ _ => .tcpBody
  · exact hrun.fault_inside fun _ _ => .udpBody

end Sys2Proof.Machine
end

section
/-! SUPPORT. Which PSEG a platform address reaches, what a turn of the schedule does, and the engine's reads as numbers
(20_memory.md R70, R80, R90). -/

namespace Sys2Proof.Machine

/-! ### Platform addresses -/

/-- The aperture of 2^17 bytes of a PSEG holds a platform address (20_memory.md R80). -/
def apertureHolds (phys : Nat) (p : Pseg) : Bool := p.params.base ≤ phys && phys < p.params.base + 2 ^ 17

/-- Both searches of the instances find the first one whose aperture holds the address. -/
theorem apertureOf_of_first {s : State} {phys k : Nat} {p : Pseg} (hp : (instances s)[k]? = some p)
    (hholds : apertureHolds phys p = true)
    (hlower : ∀ j q, (instances s)[j]? = some q → j < k → apertureHolds phys q = false) :
    apertureOf s phys = some (k, BitVec.ofNat 17 (phys - p.params.base)) := by
  obtain ⟨hk, rfl⟩ := List.getElem?_eq_some_iff.mp hp
  have hidx : (instances s).findIdx? (apertureHolds phys) = some k :=
    List.findIdx?_eq_some_iff_getElem.mpr ⟨hk, hholds, fun j hj => by
      simp [hlower j _ (List.getElem?_eq_getElem (hj.trans hk)) hj]⟩
  have hfind : (instances s).find? (apertureHolds phys) = some (instances s)[k] := by
    rw [List.find?_eq_bind_findIdx?_getElem?, hidx, Option.bind_some, hp]
  unfold apertureHolds at hidx hfind
  simp only [apertureOf, hidx, hfind]

/-- Settles O51: an aperture holds its base plus any 17-bit address. -/
theorem apertureReachesItsInstance : Obligations.ApertureReachesItsInstance := by
  intro s k p addr hp hlower
  have haddr := addr.isLt
  have hfirst := apertureOf_of_first (phys := p.params.base + addr.toNat) hp
    (by simp only [apertureHolds, Bool.and_eq_true, decide_eq_true_eq]; omega)
    (fun j q hq hj => by
      have := hlower j q hq hj
      simp only [apertureHolds, Bool.and_eq_false_iff, decide_eq_false_iff_not]
      omega)
  simpa using hfirst

/-! ### Turns -/

/-- Which PSEG is addressed does not depend on the schedule. -/
theorem select_turns {k : Nat} {s t : State} (h : select k s = some t) (ts : List Turn) :
    select k { s with turns := ts } = some { t with turns := ts } := by
  have hsame : instances { s with turns := ts } = instances s := rfl
  unfold select at h ⊢
  rw [hsame]
  split at h <;> cases h
  rfl

theorem step_of_access {k : Nat} {q : BitVec 20} {w : Word} {ts : List Turn} {s : State}
    (hturn : s.turns = .access k q w :: ts) (hfault : anyFault s = none) :
    step s = runAccess k q w { s with turns := ts } := by
  simpa [hturn, hfault] using step_cases s

theorem step_of_engine {k : Nat} {ts : List Turn} {s : State}
    (hturn : s.turns = .engine k :: ts) (hfault : anyFault s = none) :
    step s = runEngine k { s with turns := ts } := by
  simpa [hturn, hfault] using step_cases s

/-- Settles O20: the access addresses its PSEG and runs what it decodes to there. -/
theorem stepRunsTheDecodedInstruction : Obligations.StepRunsTheDecodedInstruction := by
  intro s t k q w ts i hturn hfault hselect hdecode
  rw [step_of_access hturn hfault]
  simp only [runAccess, select_turns hselect ts, hdecode]

/-- Settles O22: the engine's turn addresses its PSEG and completes there. -/
theorem engineTurnCompletes : Obligations.EngineTurnCompletes := by
  intro s t k ts hturn hfault hselect
  rw [step_of_engine hturn hfault]
  simp only [runEngine, select_turns hselect ts, onCur]

/-! ### Big-endian reads -/

theorem byteAt_of_holds {p : Pseg} {a n : Nat} {x : Nat → Byte} (h : Stated.Holds p a n x) (j : Nat) (hj : j < n) :
    byteAt p (a + j) = .ok (x j) := byteAt_ok_iff.mpr (h j hj)

/-- Settles O25: a concatenation of bytes is the number whose first byte is the most significant. -/
theorem engineReadsBigEndian : Obligations.EngineReadsBigEndian := by
  intro p a x
  refine ⟨fun h => ?_, fun h => ?_⟩
  · have hbyte := byteAt_of_holds h
    exact ⟨_, be16_of_read (hbyte 0 (by decide)) (hbyte 1 (by decide)), half_toNat (x 0) (x 1)⟩
  · have hbyte := byteAt_of_holds h
    exact ⟨_, be32_of_read (hbyte 0 (by decide)) (hbyte 1 (by decide)) (hbyte 2 (by decide)) (hbyte 3 (by decide)),
      word_toNat (x 0) (x 1) (x 2) (x 3)⟩

end Sys2Proof.Machine
end

section
/-! SUPPORT. Encode and decode: the command words and the bus requests by their fields, what each decodes to, and the two
round trips (30_encoding.md R100, R103, R105, R106). -/

namespace Sys2Proof

open Sys2Proof.Stated

/-! ### The command word -/

@[simp] theorem op_commandWord (op : BitVec 4) (proto : BitVec 1) : (commandWord op proto).extractLsb' 0 4 = op := by
  apply BitVec.eq_of_toNat_eq
  rw [extract_toNat, commandWord_toNat]
  omega

@[simp] theorem proto_commandWord (op : BitVec 4) (proto : BitVec 1) :
    (commandWord op proto).extractLsb' 8 1 = proto := by
  apply BitVec.eq_of_toNat_eq
  rw [extract_toNat, commandWord_toNat]
  omega

@[simp] theorem reserved_commandWord (op : BitVec 4) (proto : BitVec 1) :
    (commandWord op proto).extractLsb' 9 23 = 0#23 ∧ (commandWord op proto).extractLsb' 4 4 = 0#4 := by
  constructor
  all_goals
    apply BitVec.eq_of_toNat_eq
    rw [extract_toNat, commandWord_toNat, BitVec.toNat_ofNat]
    omega

/-- OP and PROTO are all there is to a word whose reserved bits are 0. -/
theorem eq_commandWord {w : Word} (h9 : w.extractLsb' 9 23 = 0#23) (h4 : w.extractLsb' 4 4 = 0#4) :
    w = commandWord (w.extractLsb' 0 4) (w.extractLsb' 8 1) := by
  apply BitVec.eq_of_toNat_eq
  have h9 := congrArg BitVec.toNat h9
  have h4 := congrArg BitVec.toNat h4
  rw [extract_toNat, BitVec.toNat_ofNat] at h9 h4
  rw [commandWord_toNat, extract_toNat, extract_toNat]
  omega

/-- A word with a reserved bit set names no command. -/
theorem commandWord_or_illegal (c : Params) (w : Word) :
    (∃ op proto, w = commandWord op proto) ∨ decodeCmd c w = .illegal := by
  by_cases hres : w.extractLsb' 9 23 = 0#23 ∧ w.extractLsb' 4 4 = 0#4
  · exact .inl ⟨_, _, eq_commandWord hres.1 hres.2⟩
  · exact .inr (if_pos (not_and_or.mp hres))

/-- The list of R103, the router's two words last. -/
theorem mem_commandWords {c : Params} {w : Word} :
    w ∈ commandWords c ↔
      (w = 0x00000000#32 ∨ w = 0x00000100#32) ∨ w = 0x00000001#32 ∨ w = 0x00000101#32
        ∨ (w = 0x00000003#32 ∨ w = 0x00000103#32)
        ∨ (w = 0x00000002#32 ∧ c.hasRouter = true) ∨ (w = 0x00000102#32 ∧ c.hasRouter = true) := by
  cases hr : c.hasRouter <;> simp [commandWords, hr, or_assoc]

/-- Every word of the list names a command. -/
theorem decodeCmd_of_mem {c : Params} {w : Word} (h : w ∈ commandWords c) : decodeCmd c w ≠ .illegal := by
  rcases mem_commandWords.mp h with (rfl | rfl) | rfl | rfl | (rfl | rfl) | ⟨rfl, hr⟩ | ⟨rfl, hr⟩ <;> simp [decodeCmd, *]

/-- What a word names, and which word it then is. -/
theorem decodeCmd_cases (c : Params) (w : Word) :
    (decodeCmd c w = .nop ∧ (w = 0x00000000#32 ∨ w = 0x00000100#32))
    ∨ (decodeCmd c w = .decodeTcp ∧ w = 0x00000001#32)
    ∨ (decodeCmd c w = .decodeUdp ∧ w = 0x00000101#32)
    ∨ (decodeCmd c w = .routeTcp ∧ w = 0x00000002#32 ∧ c.hasRouter = true)
    ∨ (decodeCmd c w = .routeUdp ∧ w = 0x00000102#32 ∧ c.hasRouter = true)
    ∨ (decodeCmd c w = .clear ∧ (w = 0x00000003#32 ∨ w = 0x00000103#32))
    ∨ (decodeCmd c w = .illegal ∧ w ∉ commandWords c) := by
  have illegal (h : decodeCmd c w = .illegal) : decodeCmd c w = .illegal ∧ w ∉ commandWords c :=
    ⟨h, fun hmem => decodeCmd_of_mem hmem h⟩
  rcases commandWord_or_illegal c w with ⟨op, proto, rfl⟩ | h
  · have hproto : proto = 0#1 ∨ proto = 1#1 := BitVec.eq_zero_or_eq_one proto
    by_cases h0 : op = 0x0
    · rcases hproto with rfl | rfl <;> simp [decodeCmd, h0, commandWord]
    by_cases h1 : op = 0x1
    · rcases hproto with rfl | rfl <;> simp [decodeCmd, h1, commandWord]
    by_cases h2 : op = 0x2
    · cases hr : c.hasRouter
      · simp [illegal (by simp [decodeCmd, h2, hr])]
      · rcases hproto with rfl | rfl <;> simp [decodeCmd, h2, hr, commandWord]
    by_cases h3 : op = 0x3
    · rcases hproto with rfl | rfl <;> simp [decodeCmd, h3, commandWord]
    · simp [illegal (by simp_all [decodeCmd])]
  · simp [illegal h]

/-- Settles O6: each word stands in one line of `decodeCmd_cases`, and the lines' words differ. -/
theorem commandWordsDecodeExactly : Obligations.CommandWordsDecodeExactly := by
  intro c w
  rcases decodeCmd_cases c w with
    ⟨h, rfl | rfl⟩ | ⟨h, rfl⟩ | ⟨h, rfl⟩ | ⟨h, rfl, hr⟩ | ⟨h, rfl, hr⟩ | ⟨h, rfl | rfl⟩ | ⟨h, hw⟩
  case inr.inr.inr.inr.inr.inr => cases hr : c.hasRouter <;> simp_all [mem_commandWords]
  all_goals simp [*]

theorem decodeCmd_illegal_iff {c : Params} {w : Word} : decodeCmd c w = .illegal ↔ w ∉ commandWords c := by
  refine ⟨fun h hmem => decodeCmd_of_mem hmem h, fun hw => ?_⟩
  rw [mem_commandWords] at hw
  rcases decodeCmd_cases c w with ⟨h, hn⟩ | ⟨h, hn⟩ | ⟨h, hn⟩ | ⟨h, hn⟩ | ⟨h, hn⟩ | ⟨h, hn⟩ | ⟨h, -⟩ <;> simp_all

/-- A CMD write is itself an instruction only where its word names no command. -/
theorem wellFormed_csrWr32 {c : Params} {r : Csr} {w : Word} :
    (Instr.csrWr32 r w).WellFormed c = true ↔ (r = .cmd → w ∉ commandWords c) := by
  simp [Instr.WellFormed, imp_iff_not_or]

/-! ### The address and the request word -/

@[simp] theorem region_addr (region : BitVec 1) (off : BitVec 16) :
    (region ++ off : BitVec 17).extractLsb' 16 1 = region := BitVec.extractLsb'_append_eq_left

@[simp] theorem offset_addr (region : BitVec 1) (off : BitVec 16) :
    (region ++ off : BitVec 17).extractLsb' 0 16 = off := BitVec.extractLsb'_append_eq_right

@[simp] theorem size_requestWord (we : BitVec 1) (size : BitVec 2) (addr : BitVec 17) :
    (requestWord we size addr).extractLsb' 17 2 = size := by
  apply BitVec.eq_of_toNat_eq
  rw [extract_toNat, requestWord_toNat]
  omega

/-- A field of the request that lies in ADDR is that field of ADDR. -/
@[simp] theorem extract_requestWord (we : BitVec 1) (size : BitVec 2) (addr : BitVec 17) {lo len : Nat}
    (h : lo + len ≤ 17) :
    (requestWord we size addr).extractLsb' lo len = addr.extractLsb' lo len :=
  BitVec.extractLsb'_append_eq_of_add_le h

/-- WE, SIZE, the region bit and the offset are all there is to a request. -/
theorem exists_eq_requestWord (q : BitVec 20) :
    ∃ (we : BitVec 1) (size : BitVec 2) (region : BitVec 1) (off : BitVec 16),
      q = requestWord we size (region ++ off) := by
  refine ⟨q.extractLsb' 19 1, q.extractLsb' 17 2, q.extractLsb' 16 1, q.extractLsb' 0 16, BitVec.eq_of_toNat_eq ?_⟩
  rw [requestWord_toNat, toNat_append_mul, extract_toNat, extract_toNat, extract_toNat, extract_toNat]
  omega

/-! ### Registers -/

/-- The requests at the offsets of R32's map are the register accesses. -/
theorem csrOfAddr_eq_some_iff {region : BitVec 1} {off : BitVec 16} {r : Csr} :
    csrOfAddr (region ++ off) = some r ↔ region = 0#1 ∧ csrOffset r = off := by
  constructor
  · intro h
    unfold csrOfAddr at h
    split at h
    next hfields =>
      rw [region_addr] at hfields
      rw [offset_addr] at h
      exact ⟨hfields.1, by simpa using List.find?_some h⟩
    next => cases h
  · rintro ⟨rfl, rfl⟩
    cases r <;> rfl

/-- The mapped offsets, as numbers. -/
theorem exists_csrOffset_iff {off : BitVec 16} :
    (∃ r, csrOffset r = off) ↔
      off.toNat % 4 = 0 ∧ (off.toNat ≤ 0x14 ∨ 0x20 ≤ off.toNat ∧ off.toNat ≤ 0x60) := by
  constructor
  · rintro ⟨r, rfl⟩
    cases r <;> decide
  · rintro ⟨hfour, hrange⟩
    have hmap : ∀ n < 0x61, n % 4 = 0 → n ≤ 0x14 ∨ 0x20 ≤ n →
        ∃ r ∈ allCsrs, (csrOffset r).toNat = n := by decide
    obtain ⟨r, -, hr⟩ := hmap off.toNat (by omega) hfour (by omega)
    exact ⟨r, BitVec.eq_of_toNat_eq hr⟩

/-! ### What a request asks for -/

theorem isCsrRequest_requestWord {we : BitVec 1} {size : BitVec 2} {region : BitVec 1} {off : BitVec 16} :
    IsCsrRequest (requestWord we size (region ++ off)) ↔ size = 0b10 ∧ region = 0#1 ∧ ∃ r, csrOffset r = off := by
  rw [exists_csrOffset_iff]
  simp [IsCsrRequest, ← BitVec.toNat_inj]

theorem isIbufRequest_requestWord {c : Params} {we : BitVec 1} {size : BitVec 2} {region : BitVec 1} {off : BitVec 16} :
    IsIbufRequest c (requestWord we size (region ++ off)) ↔ size = 0b00 ∧ region = 1#1 ∧ off.toNat < c.bufBytes := by
  simp [IsIbufRequest, ← BitVec.toNat_inj]

theorem exists_eq_csrRequest {q : BitVec 20} (h : IsCsrRequest q) : ∃ we r, q = csrRequest we r := by
  obtain ⟨we, size, region, off, rfl⟩ := exists_eq_requestWord q
  obtain ⟨rfl, rfl, r, rfl⟩ := isCsrRequest_requestWord.mp h
  exact ⟨we, r, rfl⟩

theorem exists_eq_ibufRequest {c : Params} {q : BitVec 20} (h : IsIbufRequest c q) :
    ∃ we off, off.toNat < c.bufBytes ∧ q = ibufRequest we off := by
  obtain ⟨we, size, region, off, rfl⟩ := exists_eq_requestWord q
  obtain ⟨rfl, rfl, hoff⟩ := isIbufRequest_requestWord.mp h
  exact ⟨we, off, hoff, rfl⟩

theorem decodeBus_csrRequest (c : Params) (we : BitVec 1) (r : Csr) :
    decodeBus c (csrRequest we r) = if we = 0 then .csrRd32 r else .csrWr32 r := by
  have hr : csrOfAddr (0#1 ++ csrOffset r) = some r := csrOfAddr_eq_some_iff.mpr ⟨rfl, rfl⟩
  simp [decodeBus, csrRequest, we_requestWord, hr]

theorem decodeBus_ibufRequest {c : Params} {off : BitVec 16} (we : BitVec 1) (h : off.toNat < c.bufBytes) :
    decodeBus c (ibufRequest we off) = if we = 0 then .ibufRd8 off else .ibufWr8 off := by
  simp [decodeBus, ibufRequest, we_requestWord, h]

theorem decodeBus_busError {c : Params} {q : BitVec 20} (hcsr : ¬ IsCsrRequest q) (hibuf : ¬ IsIbufRequest c q) :
    decodeBus c q = .busError (q.extractLsb' 0 17) := by
  obtain ⟨we, size, region, off, rfl⟩ := exists_eq_requestWord q
  rw [isCsrRequest_requestWord] at hcsr
  rw [isIbufRequest_requestWord] at hibuf
  by_cases hsize : size = 0b10
  · have hnone : csrOfAddr (region ++ off) = none := by
      refine Option.eq_none_iff_forall_ne_some.mpr fun r hr => ?_
      obtain ⟨hregion, hoff⟩ := csrOfAddr_eq_some_iff.mp hr
      exact hcsr ⟨hsize, hregion, r, hoff⟩
    simp [decodeBus, hsize, hnone]
  · simp_all [decodeBus]

/-- Settles O16: a request of either kind is one the encoder writes, whose fields are read back. -/
theorem requestsDecodeAsAdmitted : Obligations.RequestsDecodeAsAdmitted := by
  refine fun c q => ⟨fun h => ?_, fun h => ?_, decodeBus_busError⟩
  · obtain ⟨we, r, rfl⟩ := exists_eq_csrRequest h
    exact ⟨r, by simp [csrRequest], by rw [decodeBus_csrRequest, csrRequest, we_requestWord]⟩
  · obtain ⟨we, off, hoff, rfl⟩ := exists_eq_ibufRequest h
    rw [decodeBus_ibufRequest we hoff]
    simp [ibufRequest, we_requestWord]

/-! ### The round trips -/

theorem decode_csrRead (c : Params) (r : Csr) (w : Word) : decode c (csrRequest 0 r) w = .ok (.csrRd32 r) := by
  rw [decode, decodeBus_csrRequest, if_pos rfl]

theorem decode_csrWrite (c : Params) (r : Csr) (w : Word) :
    decode c (csrRequest 1 r) w = .ok (if r = .cmd then cmdInstr c w else .csrWr32 r w) := by
  rw [decode, decodeBus_csrRequest, if_neg (by decide)]

theorem decode_cmdWrite {c : Params} {w : Word} {i : Instr} (h : cmdInstr c w = i) :
    decode c (csrRequest 1 .cmd) w = .ok i :=
  h ▸ decode_csrWrite c .cmd w

theorem decode_ibufRead {c : Params} {off : BitVec 16} (w : Word) (h : off.toNat < c.bufBytes) :
    decode c (ibufRequest 0 off) w = .ok (.ibufRd8 off) := by
  rw [decode, decodeBus_ibufRequest 0 h, if_pos rfl]

theorem decode_ibufWrite {c : Params} {off : BitVec 16} (w : Word) (h : off.toNat < c.bufBytes) :
    decode c (ibufRequest 1 off) w = .ok (.ibufWr8 off (w.extractLsb' 0 8)) := by
  rw [decode, decodeBus_ibufRequest 1 h, if_neg (by decide)]

theorem decode_busError {c : Params} {q : BitVec 20} (w : Word) (hcsr : ¬ IsCsrRequest q) (hibuf : ¬ IsIbufRequest c q) :
    decode c q w = .error (.busError (q.extractLsb' 0 17)) := by
  rw [decode, decodeBus_busError hcsr hibuf]

/-- Settles O17, by the instruction: the encoder's request selects the register or the cell, and the fields of its data word,
or `decodeCmd_illegal_iff` for a CMD write, give back the rest. -/
theorem decodeOfEncode : Obligations.DecodeOfEncode := by
  intro c i hwf
  cases i with
  | nop proto => exact decode_cmdWrite (by simp [encode, cmdInstr, decodeCmd])
  | decodeTcp => exact decode_cmdWrite (by simp [encode, cmdInstr, decodeCmd])
  | decodeUdp => exact decode_cmdWrite (by simp [encode, cmdInstr, decodeCmd])
  | routeTcp =>
    have hrouter : c.hasRouter = true := hwf
    exact decode_cmdWrite (by simp [encode, cmdInstr, decodeCmd, hrouter])
  | routeUdp =>
    have hrouter : c.hasRouter = true := hwf
    exact decode_cmdWrite (by simp [encode, cmdInstr, decodeCmd, hrouter])
  | clear proto => exact decode_cmdWrite (by simp [encode, cmdInstr, decodeCmd])
  | csrRd32 r => exact decode_csrRead c r 0
  | csrWr32 r w =>
    by_cases hcmd : r = .cmd
    · subst hcmd
      have hillegal := decodeCmd_illegal_iff.mpr (wellFormed_csrWr32.mp hwf rfl)
      exact decode_cmdWrite (by simp [encode, cmdInstr, hillegal])
    · exact (decode_csrWrite c r w).trans (by rw [if_neg hcmd])
  | ibufRd8 off => exact decode_ibufRead 0 (of_decide_eq_true hwf)
  | ibufWr8 off b =>
    have hb : (0#24 ++ b : Word).extractLsb' 0 8 = b := BitVec.extractLsb'_append_eq_right
    exact (decode_ibufWrite (0#24 ++ b) (of_decide_eq_true hwf)).trans (by rw [hb])

/-- Settles O18: a request that decodes is one the encoder writes, and a CMD write names a command only by a word of
`decodeCmd_cases`. -/
theorem encodeOfDecode : Obligations.EncodeOfDecode := by
  intro c q w i hdecode
  by_cases hcsr : IsCsrRequest q
  · obtain ⟨we, r, rfl⟩ := exists_eq_csrRequest hcsr
    obtain rfl | rfl : we = 0 ∨ we = 1 := BitVec.eq_zero_or_eq_one we
    · rw [decode_csrRead] at hdecode
      cases hdecode
      exact ⟨rfl, rfl, trivial⟩
    rw [decode_csrWrite] at hdecode
    by_cases hcmd : r = .cmd
    · subst hcmd
      obtain rfl : cmdInstr c w = i := by simpa using hdecode
      clear hdecode hcsr
      rcases decodeCmd_cases c w with
        ⟨h, rfl | rfl⟩ | ⟨h, rfl⟩ | ⟨h, rfl⟩ | ⟨h, rfl, hr⟩ | ⟨h, rfl, hr⟩ | ⟨h, rfl | rfl⟩ | ⟨h, hw⟩ <;>
        simp [cmdInstr, Instr.WellFormed, encode, commandWord, *]
    · rw [if_neg hcmd] at hdecode
      cases hdecode
      exact ⟨wellFormed_csrWr32.mpr fun h => absurd h hcmd, rfl, rfl⟩
  by_cases hibuf : IsIbufRequest c q
  · obtain ⟨we, off, hoff, rfl⟩ := exists_eq_ibufRequest hibuf
    obtain rfl | rfl : we = 0 ∨ we = 1 := BitVec.eq_zero_or_eq_one we
    · rw [decode_ibufRead w hoff] at hdecode
      cases hdecode
      exact ⟨decide_eq_true hoff, rfl, trivial⟩
    · rw [decode_ibufWrite w hoff] at hdecode
      cases hdecode
      exact ⟨decide_eq_true hoff, rfl, rfl⟩
  · rw [decode_busError w hcsr hibuf] at hdecode
    cases hdecode

/-- Settles O19: the decoder runs on each of the ten words. -/
theorem tableWordsDecode : Obligations.TableWordsDecode := by
  unfold Obligations.TableWordsDecode
  decide

end Sys2Proof
end

section
/-! SUPPORT. The bodies on written headers: the numbers of their fields, `TcpBody` and `UdpBody` as the spec's steps give
them, and the completion that runs them (40_tcp_decoder.md R140, R141; 41_udp_decoder.md R160, R161). -/

namespace Sys2Proof.Machine

open Sys2Proof.Stated

/-! ### Header fields as numbers -/

theorem two_lt (x : Nat → Byte) (a : Nat) : two x a < 65536 := by
  have := (x a).isLt
  have := (x (a + 1)).isLt
  unfold two
  omega

theorem half_eq_two (x : Nat → Byte) (a : Nat) : (x a ++ x (a + 1) : Half) = BitVec.ofNat 16 (two x a) := by
  apply BitVec.eq_of_toNat_eq
  rw [half_toNat, BitVec.toNat_ofNat, Nat.mod_eq_of_lt (two_lt x a), two]

theorem word_eq_four (x : Nat → Byte) (a : Nat) :
    (x a ++ x (a + 1) ++ x (a + 2) ++ x (a + 3) : Word) = BitVec.ofNat 32 (four x a) := by
  apply BitVec.eq_of_toNat_eq
  have hhigh : two x a = (x a).toNat * 256 + (x (a + 1)).toNat := rfl
  have hlow : two x (a + 2) = (x (a + 2)).toNat * 256 + (x (a + 3)).toNat := rfl
  have := two_lt x a
  have := two_lt x (a + 2)
  rw [word_toNat, BitVec.toNat_ofNat, four]
  omega

/-- The half-word at offset `i` of a written header. -/
theorem be16_of_holds {p : Pseg} {b n : Nat} {x : Nat → Byte} (h : Holds p b n x) {i : Nat} (hi : i + 2 ≤ n) :
    be16 p (b + i) = .ok (BitVec.ofNat 16 (two x i)) := by
  rw [be16_of_read (byteAt_of_holds h i (by omega)) (byteAt_of_holds h (i + 1) (by omega)), half_eq_two]

/-- The word at offset `i` of a written header. -/
theorem be32_of_holds {p : Pseg} {b n : Nat} {x : Nat → Byte} (h : Holds p b n x) {i : Nat} (hi : i + 4 ≤ n) :
    be32 p (b + i) = .ok (BitVec.ofNat 32 (four x i)) := by
  rw [be32_of_read (byteAt_of_holds h i (by omega)) (byteAt_of_holds h (i + 1) (by omega))
    (byteAt_of_holds h (i + 2) (by omega)) (byteAt_of_holds h (i + 3) (by omega)), word_eq_four]

/-! ### The TCP body -/

/-- The fields of the offset/flags word (30_encoding.md R112). -/
theorem offsetFlags_fields (x : Nat → Byte) :
    (BitVec.ofNat 16 (two x 12)).extractLsb' 12 4 = BitVec.ofNat 4 (doffOf x)
      ∧ ((BitVec.ofNat 16 (two x 12)).extractLsb' 9 3 = 0 ↔ (x 12).toNat / 2 % 8 = 0)
      ∧ (BitVec.ofNat 16 (two x 12)).extractLsb' 0 9 = BitVec.ofNat 9 (two x 12 % 512) := by
  have hlow := (x 13).isLt
  have htwo : two x 12 = (x 12).toNat * 256 + (x 13).toNat := rfl
  have hword : (BitVec.ofNat 16 (two x 12)).toNat = two x 12 := Nat.mod_eq_of_lt (two_lt x 12)
  refine ⟨BitVec.eq_of_toNat_eq ?_, ?_, BitVec.eq_of_toNat_eq ?_⟩
  · rw [extract_toNat, hword, BitVec.toNat_ofNat, doffOf]
    omega
  · rw [← BitVec.toNat_inj, extract_toNat, hword, show (0 : BitVec 3).toNat = 0 from rfl]
    omega
  · rw [extract_toNat, hword, BitVec.toNat_ofNat]
    omega

theorem doffOf_lt (x : Nat → Byte) : doffOf x < 16 := by
  have := (x 12).isLt
  unfold doffOf
  omega

/-- Steps 3 to 7 on the header's numbers. -/
theorem tcpChecks_eq_outcome (x : Nat → Byte) (b : Nat) {len : Nat} (hlen : ¬ len < 20) :
    tcpChecks b len (BitVec.ofNat 16 (two x 0)) (BitVec.ofNat 16 (two x 2)) (BitVec.ofNat 32 (four x 4))
      (BitVec.ofNat 32 (four x 8)) (BitVec.ofNat 16 (two x 12)) (BitVec.ofNat 16 (two x 14))
      (BitVec.ofNat 16 (two x 16)) (BitVec.ofNat 16 (two x 18)) = tcpOutcome x b len := by
  obtain ⟨hdoff, hrsvd, hflags⟩ := offsetFlags_fields x
  have hnum : (BitVec.ofNat 4 (doffOf x)).toNat = doffOf x := Nat.mod_eq_of_lt (doffOf_lt x)
  simp only [tcpChecks, tcpOutcome, tcpRecord, hdoff, hnum, hflags, if_neg hlen, ne_eq, hrsvd]
  by_cases hzero : (x 12).toNat / 2 % 8 = 0
  · rw [hrsvd.mpr hzero]
  · simp only [hzero, not_false_eq_true, if_true]

/-- `TcpBody` on a header with bytes `x`. -/
theorem tcpBody_eq_outcome {p : Pseg} {b len : Nat} {x : Nat → Byte} (h : 20 ≤ len → Holds p b 20 x) :
    tcpBody p b len = tcpOutcome x b len := by
  by_cases hlen : len < 20
  · rw [tcpBody, tcpOutcome, if_pos hlen, if_pos hlen]
  · have hheld := h (not_lt.mp hlen)
    rw [← tcpChecks_eq_outcome x b hlen, tcpBody, if_neg hlen,
      show be16 p b = _ from be16_of_holds hheld (i := 0) (by decide), be16_of_holds hheld (i := 2) (by decide),
      be32_of_holds hheld (i := 4) (by decide), be32_of_holds hheld (i := 8) (by decide),
      be16_of_holds hheld (i := 12) (by decide), be16_of_holds hheld (i := 14) (by decide),
      be16_of_holds hheld (i := 16) (by decide), be16_of_holds hheld (i := 18) (by decide)]
    rfl

/-- Settles O26: the reads give the header's numbers, on which the checks are the rule's. -/
theorem tcpBodyFollowsItsSteps : Obligations.TcpBodyFollowsItsSteps := fun _ _ _ _ h => tcpBody_eq_outcome h

/-! ### The UDP body -/

/-- Steps 3 to 5 on the header's numbers. -/
theorem udpChecks_eq_outcome (x : Nat → Byte) (b : Nat) {len : Nat} (hlen : ¬ len < 8) :
    udpChecks b len (BitVec.ofNat 16 (two x 0)) (BitVec.ofNat 16 (two x 2)) (BitVec.ofNat 16 (two x 4))
      (BitVec.ofNat 16 (two x 6)) = udpOutcome x b len := by
  have hulen : (BitVec.ofNat 16 (two x 4)).toNat = two x 4 := Nat.mod_eq_of_lt (two_lt x 4)
  simp only [udpChecks, udpOutcome, udpRecord, Record.zero, hulen, if_neg hlen]

/-- `UdpBody` on a header with bytes `x`. -/
theorem udpBody_eq_outcome {p : Pseg} {b len : Nat} {x : Nat → Byte} (h : 8 ≤ len → Holds p b 8 x) :
    udpBody p b len = udpOutcome x b len := by
  by_cases hlen : len < 8
  · rw [udpBody, udpOutcome, if_pos hlen, if_pos hlen]
  · have hheld := h (not_lt.mp hlen)
    rw [← udpChecks_eq_outcome x b hlen, udpBody, if_neg hlen,
      show be16 p b = _ from be16_of_holds hheld (i := 0) (by decide), be16_of_holds hheld (i := 2) (by decide),
      be16_of_holds hheld (i := 4) (by decide), be16_of_holds hheld (i := 6) (by decide)]
    rfl

/-! ### The completion -/

/-- What a completion writes is what 60_exceptions.md R264 says, field by field. -/
theorem settle_eq_settled (v : Except Stop Record) (p : Pseg) : settle v p = settled v p := by
  rcases v with (c | f) | r <;> rfl

/-- A completion that is enabled writes the outcome of its body. -/
theorem complete_of_engineBody {p : Pseg} {v : Except Stop Record} (hbusy : p.status.busy = true)
    (hfault : p.fault = none) (h : engineBody p = some v) : complete p = settled v p := by
  rw [← settle_eq_settled]
  simp [complete, hbusy, hfault, h]

theorem ifInBuffer_of_le {p : Pseg} (h : p.latLen.toNat ≤ p.params.bufBytes) (body : Except Stop Record) :
    ifInBuffer p body = body := if_neg (not_lt.mpr h)

/-- DECODE runs on the whole input the decoder that LAT_PROTO names. -/
theorem engineBody_of_decode {p : Pseg} (hop : p.latOp = 0x1) (hlen : p.latLen.toNat ≤ p.params.bufBytes) :
    engineBody p = some (if p.latProto = 0 then tcpBody p 0 p.latLen.toNat else udpBody p 0 p.latLen.toNat) := by
  rw [engineBody, if_pos hop, decodeTcpBody, decodeUdpBody, ifInBuffer_of_le hlen, ifInBuffer_of_le hlen]

/-- Settles O30: the engine runs the decoder on the input, which ends as its steps say. -/
theorem decodeCompletes : Obligations.DecodeCompletes := by
  intro p x hbusy hfault hop hlen
  have hbody := engineBody_of_decode hop hlen
  refine ⟨fun hproto hheld => complete_of_engineBody hbusy hfault ?_,
    fun hproto hheld => complete_of_engineBody hbusy hfault ?_⟩
  · rw [hbody, if_pos hproto, tcpBody_eq_outcome hheld]
  · rw [hbody, if_neg (by simp [hproto]), udpBody_eq_outcome hheld]

/-! ### The cells that matter -/

/-- Settles O37: by the congruence of each body on the cells it reads. -/
theorem onlyHeaderBytesMatter : Obligations.OnlyHeaderBytesMatter := fun _ _ hp =>
  ⟨fun _ _ h => tcpBody_congr hp fun j hj _ => h j hj, fun _ _ h => udpBody_congr hp fun j hj _ => h j hj,
    fun _ want h => routeBody_congr hp want fun a ha _ => h a ha⟩

end Sys2Proof.Machine
end

section
/-! SUPPORT. The fault at the first unwritten cell: the reads of a body in their order, and how far the router's steps have
come when they reach a cell (40_tcp_decoder.md R142, 41_udp_decoder.md R162, 43_frame_router.md R202, R211). -/

namespace Sys2Proof.Stated

/-- Every byte the router reads lies in a frame of at least 14 bytes. -/
theorem RouteReaches.header {x : Nat → Byte} {len want a : Nat} (h : RouteReaches x len want a) : 14 ≤ len := by
  rcases h with ⟨-, h14⟩ | ⟨-, h34, -⟩ | ⟨-, ⟨h34, -⟩, -⟩ | ⟨-, ⟨⟨h34, -⟩, -⟩, -⟩ | ⟨-, ⟨⟨⟨h34, -⟩, -⟩, -⟩, -⟩ <;> omega

/-- Reading any byte after 12 and 13 takes step 3. -/
theorem RouteReaches.version {x : Nat → Byte} {len want a : Nat} (h : RouteReaches x len want a) (ha : 14 ≤ a) :
    ReachesVersion x len := by
  rcases h with ⟨h12, -⟩ | ⟨-, hv⟩ | ⟨-, hv, -⟩ | ⟨-, ⟨hv, -⟩, -⟩ | ⟨-, ⟨⟨hv, -⟩, -⟩, -⟩
  · omega
  all_goals exact hv

/-- Reading any byte after 14 takes step 5. -/
theorem RouteReaches.totalLength {x : Nat → Byte} {len want a : Nat} (h : RouteReaches x len want a) (ha : 16 ≤ a) :
    ReachesTotalLength x len := by
  rcases h with ⟨h12, -⟩ | ⟨h14, -⟩ | ⟨-, ht⟩ | ⟨-, ht, -⟩ | ⟨-, ⟨ht, -⟩, -⟩
  · omega
  · omega
  all_goals exact ht

/-- Reading byte 23, 20 or 21 takes step 6. -/
theorem RouteReaches.protocol {x : Nat → Byte} {len want a : Nat} (h : RouteReaches x len want a) (ha : 20 ≤ a) :
    ReachesProtocol x len := by
  rcases h with ⟨h12, -⟩ | ⟨h14, -⟩ | ⟨h16, -⟩ | ⟨-, hp⟩ | ⟨-, hp, -⟩
  · omega
  · omega
  · omega
  all_goals exact hp

/-- Reading byte 20 or 21 takes step 7. -/
theorem RouteReaches.fragment {x : Nat → Byte} {len want a : Nat} (h : RouteReaches x len want a)
    (ha : a = 20 ∨ a = 21) : (x 23).toNat = want := by
  rcases h with ⟨h12, -⟩ | ⟨h14, -⟩ | ⟨h16, -⟩ | ⟨h23, -⟩ | ⟨-, -, hwant⟩
  · omega
  · omega
  · omega
  · omega
  · exact hwant

end Sys2Proof.Stated

namespace Sys2Proof.Machine

open Sys2Proof.Stated

/-! ### Reads in order -/

/-- Of the cells `cs`, read in this order, `a` is the first unwritten one, and those before it hold their bytes in `x`. -/
def FirstUnwritten (p : Pseg) (x : Nat → Byte) (a : Nat) (cs : List Nat) : Prop :=
  ∃ earlier later, cs = earlier ++ a :: later ∧ (∀ c ∈ earlier, byteAt p c = .ok (x c))
    ∧ Memory.read p.ibuf a = none

namespace FirstUnwritten

variable {p : Pseg} {x : Nat → Byte} {a c : Nat} {cs : List Nat} {β : Type}

theorem mem (h : FirstUnwritten p x a cs) : a ∈ cs := by
  obtain ⟨earlier, later, rfl, -, -⟩ := h
  exact List.mem_append_right earlier List.mem_cons_self

theorem le_of_mem (h : FirstUnwritten p x a cs) {n : Nat} (hn : ∀ c ∈ cs, n ≤ c) : n ≤ a := hn a h.mem

/-- The next cell is the unwritten one, or it holds its byte and the unwritten one comes later. -/
theorem next (h : FirstUnwritten p x a (c :: cs)) :
    byteAt p c = .error (.raise (.uninitialisedRead a)) ∨ (byteAt p c = .ok (x c) ∧ FirstUnwritten p x a cs) := by
  obtain ⟨earlier, later, hcs, hheld, hnone⟩ := h
  rcases List.cons_eq_append_iff.mp hcs with ⟨rfl, ha⟩ | ⟨rest, rfl, rfl⟩
  · obtain ⟨rfl, -⟩ := List.cons.inj ha
    exact .inl (byteAt_error_iff.mpr ⟨rfl, .inr hnone⟩)
  · exact .inr ⟨hheld c List.mem_cons_self, rest, later, rfl, fun d hd => hheld d (List.mem_cons_of_mem c hd), hnone⟩

theorem byteAt_bind (h : FirstUnwritten p x a (c :: cs)) {f : Byte → Except Stop β}
    (hf : FirstUnwritten p x a cs → f (x c) = .error (.raise (.uninitialisedRead a))) :
    (byteAt p c >>= f) = .error (.raise (.uninitialisedRead a)) :=
  bind_error_iff.mpr (h.next.imp_right fun ⟨hc, hrest⟩ => ⟨x c, hc, hf hrest⟩)

theorem be16_bind (h : FirstUnwritten p x a (c :: (c + 1) :: cs)) {f : Half → Except Stop β}
    (hf : FirstUnwritten p x a cs → f (BitVec.ofNat 16 (two x c)) = .error (.raise (.uninitialisedRead a))) :
    (be16 p c >>= f) = .error (.raise (.uninitialisedRead a)) := by
  simp only [be16, bind_assoc]
  exact h.byteAt_bind fun h => h.byteAt_bind fun h => half_eq_two x c ▸ hf h

theorem be32_bind (h : FirstUnwritten p x a (c :: (c + 1) :: (c + 2) :: (c + 3) :: cs)) {f : Word → Except Stop β}
    (hf : FirstUnwritten p x a cs → f (BitVec.ofNat 32 (four x c)) = .error (.raise (.uninitialisedRead a))) :
    (be32 p c >>= f) = .error (.raise (.uninitialisedRead a)) := by
  simp only [be32, bind_assoc]
  exact h.byteAt_bind fun h => h.byteAt_bind fun h => h.byteAt_bind fun h => h.byteAt_bind fun h =>
    word_eq_four x c ▸ hf h

/-- The cells of a header of `n` bytes at `b`, written up to the byte at `b + j`. -/
theorem of_holds {b n j : Nat} {x : Nat → Byte} (hj : j < n) (hheld : Holds p b j x)
    (hnone : Memory.read p.ibuf (b + j) = none) :
    FirstUnwritten p (fun c => x (c - b)) (b + j) (List.range' b n) := by
  obtain ⟨k, rfl⟩ : ∃ k, n = j + (k + 1) := ⟨n - j - 1, by omega⟩
  refine ⟨List.range' b j, List.range' (b + j + 1) k, ?_, fun c hc => ?_, hnone⟩
  · rw [← List.range'_append_1, List.range'_succ]
  · obtain ⟨hlow, hhigh⟩ := List.mem_range'_1.mp hc
    obtain ⟨i, rfl⟩ := Nat.exists_eq_add_of_le hlow
    exact (byteAt_of_holds hheld i (by omega)).trans (by simp only [Nat.add_sub_cancel_left])

/-! ### The two decoders -/

/-- `TcpBody` reads its header bytes in rising order before any later check (40_tcp_decoder.md R142). -/
theorem tcpBody_eq {b len : Nat} (h : FirstUnwritten p x a (List.range' b 20)) (hlen : 20 ≤ len) :
    tcpBody p b len = .error (.raise (.uninitialisedRead a)) := by
  rw [tcpBody, if_neg (not_lt.mpr hlen)]
  exact h.be16_bind fun h => h.be16_bind fun h => h.be32_bind fun h => h.be32_bind fun h =>
    h.be16_bind fun h => h.be16_bind fun h => h.be16_bind fun h => h.be16_bind fun h => nomatch h.mem

/-- `UdpBody` reads its header bytes in rising order before any later check (41_udp_decoder.md R162). -/
theorem udpBody_eq {b len : Nat} (h : FirstUnwritten p x a (List.range' b 8)) (hlen : 8 ≤ len) :
    udpBody p b len = .error (.raise (.uninitialisedRead a)) := by
  rw [udpBody, if_neg (not_lt.mpr hlen)]
  exact h.be16_bind fun h => h.be16_bind fun h => h.be16_bind fun h => h.be16_bind fun h => nomatch h.mem

end FirstUnwritten

/-! ### The router -/

/-- The checks of step 4 on byte 14, which holds VERSION and IHL (30_encoding.md R126). -/
theorem passes_version {x : Nat → Byte} (hfour : (x 14).toNat / 16 = 4) (hfive : 5 ≤ (x 14).toNat % 16) :
    ¬ ((x 14).extractLsb' 4 4 ≠ 4 ∨ ((x 14).extractLsb' 0 4).toNat < 5) := by
  have hversion : (x 14).extractLsb' 4 4 = 4 := by
    apply BitVec.eq_of_toNat_eq
    rw [extract_toNat, show (4 : BitVec 4).toNat = 4 from rfl]
    omega
  rw [extract_toNat, not_or, not_not]
  exact ⟨hversion, by omega⟩

/-- The router faults at the first unwritten byte that its steps reach (43_frame_router.md R211): each check before it
passes, since the steps go on. -/
theorem FirstUnwritten.routeBody_eq {p : Pseg} {x : Nat → Byte} {a len : Nat} {want : Byte}
    (h : FirstUnwritten p x a envelopeOrder) (hreach : RouteReaches x len want.toNat a) :
    routeBody p len want = .error (.raise (.uninitialisedRead a)) := by
  have hihl : 4 * ((x 14).extractLsb' 0 4).toNat = iphlOf x := by
    rw [extract_toNat, pow_zero, Nat.div_one]
    rfl
  have hiplen : (BitVec.ofNat 16 (two x 16)).toNat = two x 16 := Nat.mod_eq_of_lt (two_lt x 16)
  refine (if_neg (not_lt.mpr hreach.header)).trans (h.be16_bind fun h => ?_)
  obtain ⟨h34, hether⟩ := hreach.version (h.le_of_mem (by decide))
  refine (if_neg (by simp [hether])).trans ((if_neg (not_lt.mpr h34)).trans (h.byteAt_bind fun h => ?_))
  obtain ⟨-, hfour, hfive, hheader⟩ := hreach.totalLength (h.le_of_mem (by decide))
  refine (if_neg (passes_version hfour hfive)).trans ((if_neg ?_).trans (h.be16_bind fun h => ?_))
  · rw [hihl]
    exact not_lt.mpr hheader
  obtain ⟨-, hmin, hframe⟩ := hreach.protocol (h.le_of_mem (by decide))
  refine (if_neg ?_).trans ((if_neg ?_).trans (h.byteAt_bind fun h => ?_))
  · rw [hihl, hiplen]
    exact not_lt.mpr hmin
  · rw [hiplen]
    exact not_lt.mpr hframe
  have hwant : x 23 = want := BitVec.eq_of_toNat_eq (hreach.fragment (by simpa using h.mem))
  exact (if_neg (not_not.mpr hwant)).trans (h.be16_bind fun h => nomatch h.mem)

/-- Settles O29: the cells of each body stand in the order of its reads, up to the unwritten one. -/
theorem unwrittenHeaderByteFaults : Obligations.UnwrittenHeaderByteFaults := by
  refine ⟨fun p b len j x hheld hnone => ⟨fun hlen hj => ?_, fun hlen hj => ?_⟩,
    fun p len want x earlier later a horder hheld hreach hnone => ?_⟩
  · exact (FirstUnwritten.of_holds hj hheld hnone).tcpBody_eq hlen
  · exact (FirstUnwritten.of_holds hj hheld hnone).udpBody_eq hlen
  · have hcells : FirstUnwritten p x a envelopeOrder := by
      refine ⟨earlier, later, horder, fun c hc => byteAt_of_read (hheld c hc) ?_, hnone⟩
      have hinside : ∀ d ∈ envelopeOrder, d < 64 := by decide
      exact (hinside c (horder ▸ List.mem_append_left _ hc)).trans_le (le_bufBytes p.params)
    exact hcells.routeBody_eq hreach

end Sys2Proof.Machine
end

section
/-! The UDP decoder's steps as the spec states them (41_udp_decoder.md R161, R166). -/

namespace Sys2Proof.Machine

/-- Settles O27: a datagram shorter than 8 bytes ends before any read; otherwise the four reads give the header's numbers,
on which the checks are the rule's (`udpBody_eq_outcome`). -/
theorem udpBodyFollowsItsSteps : Obligations.UdpBodyFollowsItsSteps := fun _ _ _ _ h => udpBody_eq_outcome h

end Sys2Proof.Machine
end

section
/-! The texts of the host-side renderer (42_renderer.md R180 to R184). -/

namespace Sys2Proof.Machine

open Sys2Proof.Stated

/-! ### Numbers -/

theorem hexDigit_eq_digitOf (v : BitVec 4) : hexDigit v = digitOf v.toNat := by
  revert v
  decide

/-- The digit of a field of four bits that begins at bit `lo`. -/
theorem hexDigit_extract {n : Nat} (v : BitVec n) (lo : Nat) :
    hexDigit (v.extractLsb' lo 4) = digitOf (v.toNat / 2 ^ lo % 16) :=
  (hexDigit_eq_digitOf _).trans (congrArg digitOf (extract_toNat v lo 4))

theorem toNat_of_mem_decimal {n : Nat} {ch : Char} (h : ch ∈ decimal n) : 48 ≤ ch.toNat ∧ ch.toNat ≤ 57 := by
  have hdigit : ch.isDigit = true := Nat.isDigit_of_mem_toDigits (by decide) (by decide) h
  simpa [Char.isDigit, UInt32.le_iff_toNat_le] using hdigit

theorem decimal_value (n : Nat) : (decimal n).foldl (fun acc ch => 10 * acc + (ch.toNat - 48)) 0 = n := by
  have hvalue : Nat.ofDigitChars 10 (decimal n) 0 = n := Nat.ofDigitChars_ten_toDigits
  rwa [Nat.ofDigitChars_eq_foldl] at hvalue

/-- The last digit is behind the decimal of the rest, so the first digit is that of a number below 10. -/
theorem decimal_head_ne_zero {n : Nat} (hn : n ≠ 0) : (decimal n).head? ≠ some '0' := by
  induction n using Nat.strong_induction_on with
  | _ n ih =>
    rcases Nat.lt_or_ge n 10 with hlt | hge
    · simpa [decimal, Nat.toDigits_of_lt_base hlt] using hn
    · have hrest : (decimal (n / 10)).head? ≠ some '0' := ih (n / 10) (by omega) (by omega)
      rw [decimal, Nat.toDigits_of_base_le (by decide) hge, List.head?_append_of_ne_nil _ Nat.toDigits_ne_nil]
      exact hrest

/-- Settles O53: the library's decimal digits, and one digit for each four bits. -/
theorem renderedNumbersFollowTheirForms : Obligations.RenderedNumbersFollowTheirForms := by
  refine ⟨fun n => ⟨fun _ => toNat_of_mem_decimal, decimal_value n, Nat.toDigits_ne_nil, fun hhead => ?_⟩,
    fun v => ?_, fun v => ?_⟩
  · obtain rfl : n = 0 := by
      by_contra hn
      exact decimal_head_ne_zero hn hhead
    rfl
  · have htop : v.toNat / 4096 % 16 = v.toNat / 4096 := Nat.mod_eq_of_lt (by omega)
    simp [hex4, hexDigit_extract, htop]
  · have hwide : (v.setWidth 4).toNat = v.toNat := BitVec.toNat_setWidth_of_le (by decide)
    simp [hex1, hexDigit_eq_digitOf, hwide]

/-! ### Bytes -/

/-- A printable byte is the character of its number (42_renderer.md R183). -/
theorem renderByte_printable {v : Byte} (h : 0x20 ≤ v.toNat ∧ v.toNat ≤ 0x7E) :
    renderByte v = [Char.ofNat v.toNat] := if_pos h

/-- Any other byte is its escape (42_renderer.md R183). -/
theorem renderByte_escape {v : Byte} (h : ¬ (0x20 ≤ v.toNat ∧ v.toNat ≤ 0x7E)) :
    renderByte v = ['0', 'x', digitOf (v.toNat / 16), digitOf (v.toNat % 16)] := by
  have htop : v.toNat / 16 % 16 = v.toNat / 16 := Nat.mod_eq_of_lt (by omega)
  simp [renderByte, h, hexDigit_extract, htop]

/-! ### The bytes of a descriptor -/

/-- The cells that hold a list: its first byte in the first of them, the rest behind. -/
theorem holdsBytes_cons {p : Pseg} {a : Nat} {b : Byte} {bs : List Byte} :
    HoldsBytes p a (b :: bs) ↔ byteAt p a = .ok b ∧ HoldsBytes p (a + 1) bs := by
  have hnext (j : Nat) : a + 1 + j = a + (j + 1) := by omega
  constructor
  · refine fun h => ⟨byteAt_ok_iff.mpr (h 0 b rfl), fun j c hc => ?_⟩
    exact hnext j ▸ h (j + 1) c hc
  · rintro ⟨hb, hbs⟩ (_ | j) c hc
    · obtain rfl : b = c := Option.some.inj hc
      exact byteAt_ok_iff.mp hb
    · exact hnext j ▸ hbs j c hc

/-- A descriptor of a held list reads as the list (42_renderer.md R180). -/
theorem descriptorBytes_of_holdsBytes {p : Pseg} {a : Nat} {bs : List Byte} (h : HoldsBytes p a bs) :
    descriptorBytes p a bs.length = .ok bs := by
  induction bs generalizing a with
  | nil => rfl
  | cons b bs ih =>
    obtain ⟨hb, hbs⟩ := holdsBytes_cons.mp h
    exact bind_ok_iff.mpr ⟨b, hb, bind_ok_iff.mpr ⟨bs, ih hbs, rfl⟩⟩

/-- Written cells hold some list. -/
theorem exists_holdsBytes {p : Pseg} {a n : Nat}
    (h : ∀ j < n, a + j < p.params.bufBytes ∧ Memory.read p.ibuf (a + j) ≠ none) :
    ∃ bs : List Byte, bs.length = n ∧ HoldsBytes p a bs := by
  induction n generalizing a with
  | zero => exact ⟨[], rfl, fun _ _ hb => nomatch hb⟩
  | succ n ih =>
    obtain ⟨hin, hwritten⟩ := h 0 n.succ_pos
    obtain ⟨b, hb⟩ := Option.ne_none_iff_exists'.mp hwritten
    obtain ⟨bs, rfl, hbs⟩ := ih (a := a + 1) fun j hj => by
      simpa [Nat.add_assoc, Nat.add_comm 1] using h (j + 1) (Nat.succ_lt_succ hj)
    exact ⟨b :: bs, rfl, holdsBytes_cons.mpr ⟨byteAt_of_read hb hin, hbs⟩⟩

/-- The text where both descriptors name written cells: the TCP or the UDP one by LAST_PROTO (42_renderer.md R184). -/
theorem render_of_holdsBytes {p : Pseg} {opts pay : List Byte} (ecn : Bool)
    (hopts : opts.length = p.record.optLen.toNat) (hoptCells : HoldsBytes p p.record.optOff.toNat opts)
    (hpay : pay.length = p.record.payLen.toNat) (hpayCells : HoldsBytes p p.record.payOff.toNat pay) :
    render ecn p =
      .ok (if p.status.lastProto = 0 then tcpText ecn p.record opts pay else udpText p.record pay) := by
  rw [render, ← hopts, ← hpay, descriptorBytes_of_holdsBytes hoptCells, descriptorBytes_of_holdsBytes hpayCells]
  rfl

/-- Settles O52: written cells hold a list, of which `render_of_holdsBytes` gives the text. -/
theorem renderingNeverFailsOnWrittenBytes : Obligations.RenderingNeverFailsOnWrittenBytes := by
  refine ⟨fun ecn p hopts hpay => ?_, fun v => ⟨fun hprint => ?_, renderByte_escape⟩, rfl,
    fun v => List.intercalate_singleton, fun v w bs => ?_⟩
  · obtain ⟨opts, hoptLen, hoptCells⟩ := exists_holdsBytes hopts
    obtain ⟨pay, hpayLen, hpayCells⟩ := exists_holdsBytes hpay
    exact ⟨_, render_of_holdsBytes ecn hoptLen hoptCells hpayLen hpayCells⟩
  · have hvalid : v.toNat.isValidChar := .inl (by omega)
    exact ⟨_, renderByte_printable hprint, (Char.toNat_ofNat v.toNat).trans (if_pos hvalid)⟩
  · simp [renderBytes, List.intercalate_cons_cons]

/-! ### Flags -/

/-- The second parts of the pairs whose first part is set. -/
theorem map_filter_set {α : Type} (l : List (Bool × α)) :
    (l.filter (fun x => x.1)).map (fun x => x.2) = l.filterMap (fun x => if x.1 then some x.2 else none) := by
  rw [← List.filterMap_eq_map, List.filterMap_filter]
  rfl

/-- The names in the order of 42_renderer.md R182: ECE and CWR fall away without RENDER_ECN. -/
theorem flagNames_eq_filterMap (ecn : Bool) (f : BitVec 9) :
    flagNames ecn f =
      (flagOrder ecn).filterMap (fun x => if f.toNat / 2 ^ x.1 % 2 = 1 then some x.2 else none) := by
  have hbits : (fun x : Nat × List Char => if f.toNat / 2 ^ x.1 % 2 = 1 then some x.2 else none)
      = fun x => if f.getLsbD x.1 then some x.2 else none := by
    simp only [← toNat_getLsbD, Bool.toNat_eq_one]
  rw [hbits]
  refine (map_filter_set _).trans ?_
  cases ecn with
  | false => rfl
  | true => rfl

theorem renderFlags_eq (ecn : Bool) (f : BitVec 9) :
    renderFlags ecn f =
      if flagNames ecn f = [] then "[none]".toList
      else "[".toList ++ List.intercalate ", ".toList (flagNames ecn f) ++ "]".toList := by
  unfold renderFlags
  split
  · next hnone => rw [if_pos hnone]
  · next hsome => rw [if_neg hsome]

/-- Settles O54: the flag text of `renderFlags_eq` over the names in the rule's order. -/
theorem renderedFlagsFollowTheOrder : Obligations.RenderedFlagsFollowTheOrder := by
  intro ecn f
  rw [renderFlags_eq, flagNames_eq_filterMap]
  rfl

/-! ### The lines -/

/-- Settles O55: the text of `render_of_holdsBytes` is the rule's lines, its two lengths being those of the lists. -/
theorem renderedTextFollowsTheLayout : Obligations.RenderedTextFollowsTheLayout := by
  intro ecn p opts pay hopts hoptCells hpay hpayCells
  have htext := render_of_holdsBytes ecn hopts hoptCells hpay hpayCells
  refine ⟨fun hproto => ?_, fun hproto => ?_⟩
  · rw [htext, if_pos hproto]
    simp only [tcpText, textLine, lines, List.flatMap_cons, List.flatMap_nil, List.append_assoc, List.append_nil,
      hopts, hpay]
  · rw [htext, if_neg (by simp [hproto])]
    simp only [udpText, textLine, lines, List.flatMap_cons, List.flatMap_nil, List.append_assoc, List.append_nil, hpay]

end Sys2Proof.Machine
end

section
/-! SUPPORT. The router on a written envelope: each check as one on the frame's numbers, `RouteBody` as the spec's steps give it,
and the completion that runs the selected decoder on the inner segment (43_frame_router.md R200, R201, R202, R208). -/

namespace Sys2Proof.Stated

/-- Every byte the router reads lies below the least BUF_BYTES (00_scope.md R8, 43_frame_router.md R211). -/
theorem RouteReaches.lt_bufBytes {x : Nat → Byte} {len want a : Nat} (h : RouteReaches x len want a) (c : Params) :
    a < c.bufBytes := by
  have hmin := Machine.le_bufBytes c
  rcases h with ⟨ha, -⟩ | ⟨ha, -⟩ | ⟨ha, -⟩ | ⟨ha, -⟩ | ⟨ha, -⟩ <;> omega

end Sys2Proof.Stated

namespace Sys2Proof.Machine

open Sys2Proof.Stated

/-! ### The checks on the frame's numbers -/

/-- A half-word compares as its number: step 2, on the EtherType. -/
theorem ofNat_two_ne_iff (x : Nat → Byte) (a : Nat) (v : Half) :
    BitVec.ofNat 16 (two x a) ≠ v ↔ two x a ≠ v.toNat := by
  rw [ne_eq, ← BitVec.toNat_inj, BitVec.toNat_ofNat, Nat.mod_eq_of_lt (two_lt x a)]

/-- Step 4 on byte 14, which holds VERSION and IHL (30_encoding.md R126). -/
theorem badVersionOrIhl_iff (v : Byte) :
    (v.extractLsb' 4 4 ≠ 4 ∨ (v.extractLsb' 0 4).toNat < 5) ↔ (v.toNat / 16 ≠ 4 ∨ v.toNat % 16 < 5) := by
  have hbyte := v.isLt
  rw [ne_eq, ← BitVec.toNat_inj, extract_toNat, extract_toNat, show (4 : BitVec 4).toNat = 4 from rfl]
  omega

/-- The header length that step 5 computes. -/
theorem iphl_eq_iphlOf (x : Nat → Byte) : 4 * ((x 14).extractLsb' 0 4).toNat = iphlOf x := by
  rw [extract_toNat, pow_zero, Nat.div_one]
  rfl

/-- Step 8 looks at the fragment offset alone, bits 12:0 of its half-word (43_frame_router.md R207). -/
theorem fragmentOffset_iff (x : Nat → Byte) :
    (BitVec.ofNat 16 (two x 20)).extractLsb' 0 13 ≠ 0 ↔ two x 20 % 8192 ≠ 0 := by
  rw [ne_eq, ← BitVec.toNat_inj, extract_toNat, BitVec.toNat_ofNat, Nat.mod_eq_of_lt (two_lt x 20), pow_zero, Nat.div_one]
  rfl

/-! ### The router -/

/-- A body that reads a value goes on with it. -/
theorem bind_of_ok {α β : Type} {e : Except Stop α} {v : α} (h : e = .ok v) (f : α → Except Stop β) : (e >>= f) = f v :=
  h ▸ rfl

/-- `RouteBody` on a frame with bytes `x`, step by step: the checks passed so far reach the cells the next step reads, and
that step's check is the rule's on the frame's numbers. -/
theorem routeBody_eq_outcome {p : Pseg} {len : Nat} {want : Byte} {x : Nat → Byte}
    (h : ∀ a : Nat, RouteReaches x len want.toNat a → Memory.read p.ibuf a = some (x a)) :
    routeBody p len want = routeOutcome p.params.routeLenFromIp x len want.toNat := by
  have byte : ∀ a, RouteReaches x len want.toNat a → byteAt p a = .ok (x a) := fun a ha =>
    byteAt_of_read (h a ha) (ha.lt_bufBytes p.params)
  have half : ∀ a, RouteReaches x len want.toNat a → RouteReaches x len want.toNat (a + 1) →
      be16 p a = .ok (BitVec.ofNat 16 (two x a)) := fun a ha hb =>
    half_eq_two x a ▸ be16_of_read (byte a ha) (byte (a + 1) hb)
  have hiplen : (BitVec.ofNat 16 (two x 16)).toNat = two x 16 := Nat.mod_eq_of_lt (two_lt x 16)
  unfold routeBody routeOutcome
  refine if_ctx_congr Iff.rfl (fun _ => rfl) fun h14 => ?_
  have hheader := not_lt.mp h14
  rw [bind_of_ok (half 12 (.inl ⟨.inl rfl, hheader⟩) (.inl ⟨.inr rfl, hheader⟩))]
  refine if_ctx_congr (ofNat_two_ne_iff x 12 _) (fun _ => rfl) fun hether => ?_
  refine if_ctx_congr Iff.rfl (fun _ => rfl) fun h34 => ?_
  have hversion : ReachesVersion x len := ⟨not_lt.mp h34, not_not.mp hether⟩
  rw [bind_of_ok (byte 14 (.inr (.inl ⟨rfl, hversion⟩)))]
  simp only [iphl_eq_iphlOf]
  refine if_ctx_congr (badVersionOrIhl_iff (x 14)) (fun _ => rfl) fun hgood => ?_
  refine if_ctx_congr Iff.rfl (fun _ => rfl) fun hlen => ?_
  obtain ⟨hfour, hfive⟩ := not_or.mp hgood
  have htotal : ReachesTotalLength x len := ⟨hversion, not_not.mp hfour, not_lt.mp hfive, not_lt.mp hlen⟩
  rw [bind_of_ok (half 16 (.inr (.inr (.inl ⟨.inl rfl, htotal⟩))) (.inr (.inr (.inl ⟨.inr rfl, htotal⟩))))]
  simp only [hiplen]
  refine if_ctx_congr Iff.rfl (fun _ => rfl) fun hmin => ?_
  refine if_ctx_congr Iff.rfl (fun _ => rfl) fun hframe => ?_
  have hproto : ReachesProtocol x len := ⟨htotal, not_lt.mp hmin, not_lt.mp hframe⟩
  rw [bind_of_ok (byte 23 (.inr (.inr (.inr (.inl ⟨rfl, hproto⟩)))))]
  refine if_ctx_congr BitVec.toNat_inj.symm.not (fun _ => rfl) fun hwant => ?_
  have hfrag : ∀ a, a = 20 ∨ a = 21 → RouteReaches x len want.toNat a := fun a ha =>
    .inr (.inr (.inr (.inr ⟨ha, hproto, not_not.mp hwant⟩)))
  rw [bind_of_ok (half 20 (hfrag 20 (.inl rfl)) (hfrag 21 (.inr rfl)))]
  exact if_ctx_congr (fragmentOffset_iff x) (fun _ => rfl) fun _ => rfl

/-- Settles O28: by the walk through the steps in `routeBody_eq_outcome`. -/
theorem routeBodyFollowsItsSteps : Obligations.RouteBodyFollowsItsSteps := fun _ _ _ _ h => routeBody_eq_outcome h

/-- Settles O34: the checks that pass bound IPLEN and the IPv4 header. -/
theorem routedSegmentLiesInTheFrame : Obligations.RoutedSegmentLiesInTheFrame := fun _ _ _ _ _ h =>
  routeBody_ok_bounds h

/-! ### The completion -/

/-- ROUTE runs the decoder that LAT_PROTO names on the segment the router finds for that decoder's IPv4 protocol. -/
theorem engineBody_of_route {p : Pseg} (hop : p.latOp = 0x2) (hlen : p.latLen.toNat ≤ p.params.bufBytes) :
    engineBody p = some (routeBody p p.latLen.toNat (if p.latProto = 0 then 6 else 17) >>= fun seg =>
      if p.latProto = 0 then tcpBody p seg.1 seg.2 else udpBody p seg.1 seg.2) := by
  rw [engineBody, if_neg (by simp [hop]), if_pos hop, routeTcpBody, routeUdpBody, ifInBuffer_of_le hlen,
    ifInBuffer_of_le hlen]
  by_cases hproto : p.latProto = 0
  · simp only [if_pos hproto]
  · simp only [if_neg hproto]

/-- Settles O31: the router ends as its steps say, and the selected decoder runs on the segment it returns. -/
theorem routeCompletes : Obligations.RouteCompletes := by
  rintro p x y want hbusy hfault hop hlen rfl hreach
  have hbody := engineBody_of_route hop hlen
  rw [routeBody_eq_outcome hreach] at hbody
  refine ⟨fun c herr => complete_of_engineBody hbusy hfault ?_, fun off len hok => ⟨fun hproto hheld =>
    complete_of_engineBody hbusy hfault ?_, fun hproto hheld => complete_of_engineBody hbusy hfault ?_⟩⟩
  · rw [hbody, herr]
    rfl
  · rw [hbody, bind_of_ok hok, if_pos hproto, tcpBody_eq_outcome hheld]
  · rw [hbody, bind_of_ok hok, if_neg (by simp [hproto]), udpBody_eq_outcome hheld]

end Sys2Proof.Machine
end

section
/-! SUPPORT. What a CMD write does when its word and BUSY are known, and the commands it stands for (44_control_and_bus.md R230 to
R236). -/

namespace Sys2Proof.Machine

open Sys2Proof.Stated

/-! ### The words of the commands -/

theorem decodeCmd_nopWord (c : Params) (proto : BitVec 1) : decodeCmd c (commandWord 0x0 proto) = .nop := by
  simp [decodeCmd]

theorem decodeCmd_clearWord (c : Params) (proto : BitVec 1) : decodeCmd c (commandWord 0x3 proto) = .clear := by
  simp [decodeCmd]

theorem decodeCmd_clear_iff {c : Params} {w : Word} :
    decodeCmd c w = .clear ↔ w = 0x00000003#32 ∨ w = 0x00000103#32 := by
  obtain ⟨-, -, -, -, -, hclear, -⟩ := commandWordsDecodeExactly c w
  exact hclear

theorem decodeCmd_ne_nop {c : Params} {w : Word} (h0 : w ≠ 0x00000000#32) (h1 : w ≠ 0x00000100#32) :
    decodeCmd c w ≠ .nop := by
  obtain ⟨hnop, -⟩ := commandWordsDecodeExactly c w
  exact fun h => (hnop.mp h).elim h0 h1

/-- The rule's own list of the illegal words (44_control_and_bus.md R233): no word of the six patterns is on it. -/
theorem decodeCmd_of_illegalWord {c : Params} {w : Word}
    (h : 4 ≤ (w.extractLsb' 0 4).toNat ∨ w.extractLsb' 4 4 ≠ 0 ∨ w.extractLsb' 9 23 ≠ 0
      ∨ ((w.extractLsb' 0 4).toNat = 2 ∧ c.hasRouter = false)) : decodeCmd c w = .illegal := by
  refine decodeCmd_illegal_iff.mpr fun hmem => ?_
  rcases mem_commandWords.mp hmem with (rfl | rfl) | rfl | rfl | (rfl | rfl) | ⟨rfl, hr⟩ | ⟨rfl, hr⟩ <;> simp_all

/-! ### A CMD write, by its word and BUSY -/

theorem dropCmd_eq_overrun (p : Pseg) : dropCmd p = overrun p := rfl

theorem clearCmd_eq_cleared (p : Pseg) : clearCmd p = cleared p := rfl

theorem illegalCmd_eq_refusedWord {p : Pseg} (w : Word) (hidle : p.status.busy = false) :
    illegalCmd w p = refusedWord (w.extractLsb' 0 4) p := by
  rw [illegalCmd, Status.illegalWord, hidle, refusedWord]

theorem writeCmd_of_nop {w : Word} {p : Pseg} (h : decodeCmd p.params w = .nop) : writeCmd w p = p := by
  simpa [h] using writeCmd_cases w p

theorem writeCmd_of_busy {w : Word} {p : Pseg} (hbusy : p.status.busy = true) (h : decodeCmd p.params w ≠ .nop) :
    writeCmd w p = overrun p := by
  simpa [h, hbusy, dropCmd_eq_overrun] using writeCmd_cases w p

theorem writeCmd_of_clear {w : Word} {p : Pseg} (hidle : p.status.busy = false)
    (h : decodeCmd p.params w = .clear) : writeCmd w p = cleared p := by
  simpa [h, hidle, clearCmd_eq_cleared] using writeCmd_cases w p

theorem writeCmd_of_illegal {w : Word} {p : Pseg} (hidle : p.status.busy = false)
    (h : decodeCmd p.params w = .illegal) : writeCmd w p = refusedWord (w.extractLsb' 0 4) p := by
  simpa [h, hidle, illegalCmd_eq_refusedWord w hidle] using writeCmd_cases w p

/-- An instruction that changes the addressed PSEG answers the state with that PSEG changed. -/
theorem next_onCur {f : Pseg → Pseg} {s : State} {p : Pseg} (h : f s.cur = p) :
    (.next (onCur f s) : Host.Outcome State Fault Refusal) = .next { s with cur := p } := by
  rw [← h, onCur]

/-- Settles O1: both words of NOP name it, and naming it is all they do. -/
theorem nopChangesNothing : Obligations.NopChangesNothing := fun proto s =>
  next_onCur (writeCmd_of_nop (decodeCmd_nopWord s.cur.params proto))

/-- Settles O2: an idle PSEG accepts each of the four words, whose fields are what it latches. -/
theorem acceptLatchesAndClears : Obligations.AcceptLatchesAndClears := by
  intro s hidle
  have accept {w : Word} (hw : w = 0x00000001#32 ∨ w = 0x00000101#32
      ∨ (s.cur.params.hasRouter = true ∧ (w = 0x00000002#32 ∨ w = 0x00000102#32))) :
      writeCmd w s.cur = accepted (w.extractLsb' 0 4) (w.extractLsb' 8 1) s.cur :=
    writeCmd_of_operation hidle (decodeCmd_operation hw)
  exact ⟨next_onCur (accept (.inl rfl)), next_onCur (accept (.inr (.inl rfl))), fun hr =>
    ⟨next_onCur (accept (.inr (.inr ⟨hr, .inl rfl⟩))), next_onCur (accept (.inr (.inr ⟨hr, .inr rfl⟩)))⟩⟩

/-- Settles O3: every word on the rule's list is illegal, the two ROUTE words among them where there is no router. -/
theorem illegalCommandCompletesAtOnce : Obligations.IllegalCommandCompletesAtOnce := by
  intro s hidle
  have refuse (w : Word) (hw : 4 ≤ (w.extractLsb' 0 4).toNat ∨ w.extractLsb' 4 4 ≠ 0 ∨ w.extractLsb' 9 23 ≠ 0
      ∨ ((w.extractLsb' 0 4).toNat = 2 ∧ s.cur.params.hasRouter = false)) :
      writeCmd w s.cur = refusedWord (w.extractLsb' 0 4) s.cur :=
    writeCmd_of_illegal hidle (decodeCmd_of_illegalWord hw)
  refine ⟨fun w hw => next_onCur (refuse w hw), fun hr => ⟨next_onCur (refuse 0x00000002#32 ?_),
    next_onCur (refuse 0x00000102#32 ?_)⟩⟩ <;> exact .inr (.inr (.inr ⟨rfl, hr⟩))

/-- Settles O7: each instruction is defined as the CMD write of its word. -/
theorem commandIsItsCmdWrite : Obligations.CommandIsItsCmdWrite := fun _ =>
  ⟨rfl, rfl, rfl, rfl, rfl, rfl, rfl, rfl⟩

/-! ### OVERRUN -/

/-- Only a CLEAR word takes OVERRUN back (44_control_and_bus.md R235). -/
theorem writeCmd_keeps_overrun {w : Word} {p : Pseg} (h : p.status.overrun = true) :
    (writeCmd w p).status.overrun = true ∨ w = 0x00000003#32 ∨ w = 0x00000103#32 := by
  rcases writeCmd_cases w p with ⟨-, hw⟩ | ⟨-, -, hw⟩ | ⟨-, hclear, -⟩ | ⟨-, -, hw⟩ | ⟨-, -, hw⟩
  · exact .inl (hw.symm ▸ h)
  · exact .inl (by simp [hw])
  · exact .inr (decodeCmd_clear_iff.mp hclear)
  · exact .inl (by simp [hw, h])
  · exact .inl (by simp [hw, h])

theorem accessEffect_ibufRd8_status (off : BitVec 16) (p : Pseg) :
    (accessEffect (.ibufRd8 off) p).1.status = p.status := by
  simp only [accessEffect]
  split
  · rfl
  · split <;> rfl

theorem accessEffect_ibufWr8_status (off : BitVec 16) (b : Byte) (p : Pseg) :
    (accessEffect (.ibufWr8 off b) p).1.status = p.status := by
  simp only [accessEffect]
  split
  · rfl
  · split <;> rfl

/-- Of all the accesses only CLEAR and the CMD write of its words take OVERRUN back. -/
theorem accessEffect_keeps_overrun (i : Instr) {p : Pseg} (h : p.status.overrun = true) :
    (accessEffect i p).1.status.overrun = true ∨ (∃ proto, i = .clear proto)
      ∨ i = .csrWr32 .cmd 0x00000003#32 ∨ i = .csrWr32 .cmd 0x00000103#32 := by
  have kept {w : Word} (hw : ¬ (w = 0x00000003#32 ∨ w = 0x00000103#32)) : (writeCmd w p).status.overrun = true :=
    (writeCmd_keeps_overrun h).resolve_right hw
  cases i with
  | nop proto => exact .inl (by rw [accessEffect, writeCmd_of_nop (decodeCmd_nopWord p.params proto), h])
  | decodeTcp => exact .inl (kept (by decide))
  | decodeUdp => exact .inl (kept (by decide))
  | routeTcp => exact .inl (kept (by decide))
  | routeUdp => exact .inl (kept (by decide))
  | clear proto => exact .inr (.inl ⟨proto, rfl⟩)
  | csrRd32 r => exact .inl h
  | csrWr32 r w =>
    cases r
    case cmd =>
      rcases writeCmd_keeps_overrun (w := w) h with hkept | rfl | rfl
      · exact .inl hkept
      · exact .inr (.inr (.inl rfl))
      · exact .inr (.inr (.inr rfl))
    all_goals exact .inl h
  | ibufRd8 off => exact .inl (by rw [accessEffect_ibufRd8_status, h])
  | ibufWr8 off b => exact .inl (by rw [accessEffect_ibufWr8_status, h])

theorem complete_overrun (p : Pseg) : (complete p).status.overrun = p.status.overrun := by
  rcases complete_cases p with ⟨h, -⟩ | ⟨-, -, ⟨_, -, h⟩ | ⟨_, -, h⟩ | ⟨_, -, h⟩⟩ <;> simp [h]

/-- Settles O4: a CLEAR word zeroes, no other access takes OVERRUN back, and neither does a completion. -/
theorem clearZeroesStatusAndRecord : Obligations.ClearZeroesStatusAndRecord := by
  refine ⟨fun proto s hidle => ⟨?_, rfl⟩, fun i s t h hoverrun => ?_, complete_overrun⟩
  · exact next_onCur (writeCmd_of_clear hidle (decodeCmd_clearWord s.cur.params proto))
  · obtain ⟨-, -, -, hcur, -⟩ := exec_frame h
    exact hcur ▸ accessEffect_keeps_overrun i hoverrun

/-! ### The pending completion -/

/-- A completion commutes with a change that the engine does not look at and that its outcome does not overwrite. -/
theorem complete_comm {f : Pseg → Pseg} {p : Pseg} (hbusy : (f p).status.busy = p.status.busy)
    (hfault : (f p).fault = p.fault) (hbody : engineBody (f p) = engineBody p)
    (hsettle : ∀ v, settle v (f p) = f (settle v p)) : complete (f p) = f (complete p) := by
  unfold complete
  rw [hbusy, hfault, hbody]
  split
  · cases engineBody p with
    | none => rfl
    | some v => exact hsettle v
  · rfl

/-- Settles O5: no word but the two NOP words is dropped without a trace, and the engine does not look at OVERRUN. -/
theorem commandWhileBusyIsDropped : Obligations.CommandWhileBusyIsDropped := by
  refine ⟨fun s hbusy => ?_, fun p => ?_⟩
  · have drop {w : Word} (h0 : w ≠ 0x00000000#32) (h1 : w ≠ 0x00000100#32) : writeCmd w s.cur = overrun s.cur :=
      writeCmd_of_busy hbusy (decodeCmd_ne_nop h0 h1)
    refine ⟨next_onCur (drop (by decide) (by decide)), next_onCur (drop (by decide) (by decide)),
      next_onCur (drop (by decide) (by decide)), next_onCur (drop (by decide) (by decide)), fun proto => ?_,
      fun w h0 h1 => next_onCur (drop h0 h1)⟩
    exact next_onCur (writeCmd_of_busy hbusy (decodeCmd_clearWord s.cur.params proto ▸ by decide))
  · refine complete_comm rfl rfl (engineBody_congr rfl rfl rfl rfl fun _ _ => rfl) ?_
    rintro ((c | f) | r) <;> rfl

end Sys2Proof.Machine
end

section
/-! SUPPORT. The four bus operations: what a register write stores and a register read returns, the cells of IBUF, and the
access that is none (44_control_and_bus.md R238 to R244). -/

namespace Sys2Proof.Machine

open Sys2Proof.Stated

/-! ### Register writes and reads -/

/-- A read-only register ignores a write (44_control_and_bus.md R244). -/
theorem writeCsr_readOnly {r : Csr} (hcmd : r ≠ .cmd) (hctrl : r ≠ .ctrl) (hlen : r ≠ .len) (w : Word) (p : Pseg) :
    writeCsr r w p = p := by
  cases r
  case cmd => exact absurd rfl hcmd
  case ctrl => exact absurd rfl hctrl
  case len => exact absurd rfl hlen
  all_goals rfl

/-- Settles O11: the engine looks at the latched length, not at LEN, and not at IRQ_EN. -/
theorem registerWriteStoresOrIsIgnored : Obligations.RegisterWriteStoresOrIsIgnored := by
  refine ⟨fun s w => ⟨rfl, rfl, rfl, fun r hcmd hctrl hlen => next_onCur (writeCsr_readOnly hcmd hctrl hlen w s.cur)⟩,
    fun p w e => ?_⟩
  refine complete_comm (f := fun q => { q with len := w, irqEn := e }) rfl rfl
    (engineBody_congr rfl rfl rfl rfl fun _ _ => rfl) ?_
  rintro ((c | f) | r) <;> rfl

/-- Settles O8: a field of at most 32 bits keeps its number when zero-extended. -/
theorem registerReadReturnsItsValue : Obligations.RegisterReadReturnsItsValue := by
  intro r s
  refine ⟨csrValue s.cur r, rfl, ?_⟩
  cases r
  case bufsize => exact bufsize_toNat s.cur
  case ctrl => exact ctrl_toNat s.cur
  case caps | cmd | status | len | seq | ack => rfl
  all_goals exact BitVec.toNat_setWidth_of_le (by decide)

/-- Every record register reads 0 of the zero record (10_state.md R38). -/
theorem csrValue_of_zero_record {p : Pseg} (h : p.record = .zero) : ∀ r ∈ recordCsrs, csrValue p r = 0 := by
  simp [recordCsrs, csrValue, h, Record.zero]

/-- Settles O41: while BUSY = 1 the invariant leaves no valid record, and only OVERRUN and the latched command in STATUS. -/
theorem busyWindowReads : Obligations.BusyWindowReads := by
  rintro p ⟨⟨hbusyInv, -⟩, ⟨hzero, -⟩, hlatch, -⟩ hbusy
  obtain ⟨hdone, herr, hvalid, hcode⟩ := hbusyInv hbusy
  obtain ⟨hop, hproto, -⟩ := hlatch hbusy
  refine ⟨csrValue_of_zero_record (hzero hvalid), (statusWord_toNat p.status).trans ?_⟩
  simp [hbusy, hdone, herr, hvalid, hcode, hop, hproto, codeValue]

/-! ### IBUF -/

theorem raiseFault_eq_marked (f : Fault) (p : Pseg) : raiseFault f p = marked f p := rfl

/-- Settles O13: below BUF_BYTES the read's effect depends only on whether the cell was written. -/
theorem ibufReadReturnsTheByte : Obligations.IbufReadReturnsTheByte := by
  intro s off hoff
  constructor
  · intro b hread
    simp [exec_eq_accessEffect, accessEffect, not_le.mpr hoff, hread]
  · intro hread
    simp [exec_eq_accessEffect, accessEffect, not_le.mpr hoff, hread, raiseFault_eq_marked]

/-- Settles O14: below BUF_BYTES the write's effect depends only on BUSY, and the stored list reads as the laws of
`Memory.write` say. -/
theorem ibufWriteStoresTheByte : Obligations.IbufWriteStoresTheByte := by
  refine ⟨fun s off b hoff => ⟨fun hidle => ?_, fun hbusy => ?_⟩, fun c off w hoff => decode_ibufWrite w hoff⟩
  · refine ⟨Memory.write s.cur.ibuf off.toNat b, ?_, Memory.read_write_same _ _ _,
      fun a ha => Memory.read_write_other _ _ _ _ ha⟩
    simp [exec_eq_accessEffect, accessEffect, not_le.mpr hoff, hidle, storeByte]
  · simp [exec_eq_accessEffect, accessEffect, not_le.mpr hoff, hbusy, raiseFault_eq_marked]

/-! ### Bus errors -/

/-- A recorded fault stops every step but a reset (60_exceptions.md R270). -/
theorem step_of_fault {s : State} {f : Fault} (hfault : anyFault s = some f) (hturn : s.turns.head? ≠ some .reset) :
    step s = .fault f := by
  rcases step_cases s with ⟨ts, ht, -⟩ | ⟨k, q, w, ts, -, hnone, -⟩ | ⟨k, ts, -, hnone, -⟩ | ⟨-, hnone, -⟩ | ⟨g, -, hg, hs⟩
  · simp [ht] at hturn
  · simp [hnone] at hfault
  · simp [hnone] at hfault
  · simp [hnone] at hfault
  · rw [hs, Option.some.inj (hg.symm.trans hfault)]

/-- In a run without a fault the mark that a turn sets is the first one. -/
theorem anyFault_of_marked {s t : State} {f : Fault} (hnone : anyFault s = none) (hbefore : t.before = s.before)
    (hcur : t.cur.fault = some f) : anyFault t = some f := by
  have hclear : t.before.findSome? (fun p => p.fault) = none :=
    List.findSome?_eq_none_iff.mpr fun p hp => anyFault_none_iff.mp hnone p (by simp [instances, ← hbefore, hp])
  simp [anyFault, instances, List.findSome?_append, hclear, hcur]

/-- Settles O21: such a request decodes to the bus error, whose mark is then the run's first. -/
theorem unadmittedAccessIsBusError : Obligations.UnadmittedAccessIsBusError := by
  intro s t k q w ts hturn hfault hselect hcsr hibuf
  constructor
  · rw [step_of_access hturn hfault]
    simp only [runAccess, select_turns hselect ts, decode_busError w hcsr hibuf]
    exact next_onCur rfl
  · obtain ⟨hinst, -⟩ := select_spec hselect
    have hclear : anyFault t = none := by rw [anyFault, hinst, ← anyFault, hfault]
    exact fun hnext => step_of_fault (anyFault_of_marked hclear rfl rfl) hnext

end Sys2Proof.Machine
end

section
/-! SUPPORT. The status codes, irq, and what a completion can do: LEN_OUT_OF_RANGE first, one outcome and nothing else, no
record after a failure (60_exceptions.md R260 to R268). -/

namespace Sys2Proof.Machine

open Sys2Proof.Stated

/-! ### The codes and irq -/

/-- The thirteen codes, in the order of the table (60_exceptions.md R260). -/
def allCodes : List StatusCode :=
  [.ok, .truncated, .invalidHeaderLength, .reservedBitsSet, .invalidLength, .lengthMismatch, .illegalCommand,
    .lenOutOfRange, .routeFrameTruncated, .routeNotIpv4, .routeBadIpHeader, .routeProtocolMismatch, .routeFragment]

theorem mem_allCodes (c : StatusCode) : c ∈ allCodes := by cases c <;> decide

/-- Settles O39: the thirteen numbers are pairwise different. -/
theorem statusCodeNumbers : Obligations.StatusCodeNumbers := by
  have hnodup : (allCodes.map codeValue).Nodup := by decide
  exact ⟨by decide, fun c d h => List.inj_on_of_nodup_map hnodup (mem_allCodes c) (mem_allCodes d) h⟩

/-- Settles O40: DONE is a constant after each of the updates, and IRQ_EN is left alone by all but reset. -/
theorem irqIsDoneAndEnabled : Obligations.IrqIsDoneAndEnabled := fun p =>
  ⟨rfl, fun _ _ => rfl, rfl, rfl, fun _ => rfl, fun _ => rfl, fun _ => rfl,
    Bool.and_false p.status.done, Bool.and_true p.status.done⟩

/-! ### The engine's only model fault -/

section

variable {f : Fault} (hf : ∀ a, f ≠ .uninitialisedRead a)
include hf

theorem byteAt_ne_raise (p : Pseg) (a : Nat) : byteAt p a ≠ .error (.raise f) := by
  simp [byteAt_error_iff, hf]

theorem be16_ne_raise (p : Pseg) (a : Nat) : be16 p a ≠ .error (.raise f) := by
  simp [be16, bind_error_iff, byteAt_ne_raise hf]

theorem be32_ne_raise (p : Pseg) (a : Nat) : be32 p a ≠ .error (.raise f) := by
  simp [be32, bind_error_iff, byteAt_ne_raise hf]

theorem tcpBody_ne_raise (p : Pseg) (b len : Nat) : tcpBody p b len ≠ .error (.raise f) := by
  simp only [tcpBody, tcpChecks, ne_eq, bind_error_iff, check_error_iff]
  simp [be16_ne_raise hf, be32_ne_raise hf]

theorem udpBody_ne_raise (p : Pseg) (b len : Nat) : udpBody p b len ≠ .error (.raise f) := by
  simp only [udpBody, udpChecks, ne_eq, bind_error_iff, check_error_iff]
  simp [be16_ne_raise hf]

theorem routeBody_ne_raise (p : Pseg) (len : Nat) (want : Byte) : routeBody p len want ≠ .error (.raise f) := by
  simp only [routeBody, ne_eq, bind_error_iff, check_error_iff]
  simp [be16_ne_raise hf, byteAt_ne_raise hf]

theorem RunsDecoder.ne_raise {p : Pseg} {want : Byte} {body : Nat → Nat → Except Stop Record} {v : Except Stop Record}
    (h : RunsDecoder p want body v) (hbody : ∀ b n, body b n ≠ .error (.raise f)) : v ≠ .error (.raise f) := by
  rcases h with rfl | rfl <;>
    simp [ifInBuffer, check_error_iff, bind_error_iff, routeBody_ne_raise hf, hbody]

end

/-- The one model fault the engine raises is that of its reads (00_scope.md R15). -/
theorem engineBody_raise {p : Pseg} {f : Fault} (h : engineBody p = some (.error (.raise f))) :
    ∃ a, f = .uninitialisedRead a := by
  by_contra hnot
  have hf : ∀ a, f ≠ .uninitialisedRead a := not_exists.mp hnot
  rcases engineBody_runsDecoder h with ⟨-, hrun⟩ | ⟨-, hrun⟩
  · exact hrun.ne_raise hf (tcpBody_ne_raise hf p) rfl
  · exact hrun.ne_raise hf (udpBody_ne_raise hf p) rfl

/-! ### The completion -/

/-- Settles O32: each of the four bodies makes this check before it reads. -/
theorem lengthBeyondBufferIsRefused : Obligations.LengthBeyondBufferIsRefused := by
  intro p hbusy hfault hop hlen
  have hrefused (body : Except Stop Record) : ifInBuffer p body = .error (.finish .lenOutOfRange) := if_pos hlen
  have hbody : engineBody p = some (.error (.finish .lenOutOfRange)) := by
    rcases hop with hop | hop <;>
      simp [engineBody, hop, decodeTcpBody, decodeUdpBody, routeTcpBody, routeUdpBody, hrefused]
  exact complete_of_engineBody hbusy hfault hbody

/-- The latches of a DECODE or ROUTE name a body (44_control_and_bus.md R232). -/
theorem exists_engineBody {p : Pseg} (hop : p.latOp = 0x1 ∨ p.latOp = 0x2) : ∃ v, engineBody p = some v := by
  rcases hop with hop | hop <;> simp [engineBody, hop]

/-- The engine's step is enabled only while BUSY = 1 with the FAULT mark clear (44_control_and_bus.md R232). -/
theorem complete_of_disabled {p : Pseg} (h : p.status.busy = false ∨ p.fault ≠ none) : complete p = p := by
  rcases complete_cases p with ⟨hc, -⟩ | ⟨hbusy, hfault, -⟩
  · exact hc
  · simp [hbusy, hfault] at h

/-- Settles O33: by the three ways a body ends. -/
theorem completionWritesOnlyItsOutcome : Obligations.CompletionWritesOnlyItsOutcome := by
  refine fun p => ⟨complete_of_disabled, fun hbusy hfault hop => ?_⟩
  obtain ⟨v, hbody⟩ := exists_engineBody hop
  have hc : complete p = settled v p := complete_of_engineBody hbusy hfault hbody
  rcases v with (c | f) | r
  · exact .inl ⟨c, engineBody_finish_ne_ok hbody, hc⟩
  · obtain ⟨a, rfl⟩ := engineBody_raise hbody
    exact .inr (.inr ⟨a, hc⟩)
  · exact .inr (.inl ⟨r, hc⟩)

/-- ERR = 1 comes with VALID = 0 (10_state.md R36). -/
theorem StatusInv.not_valid_of_err {t : Status} (h : StatusInv t) (herr : t.err = true) : t.valid = false := by
  obtain ⟨-, hidle, hdone⟩ := h
  cases hd : t.done with
  | false =>
    obtain ⟨-, hvalid, -⟩ := hidle hd
    exact hvalid
  | true =>
    obtain ⟨hopposite, -⟩ := hdone hd
    simpa [herr] using hopposite

/-- Settles O42: the invariant, which a completion keeps, ties ERR to VALID and VALID to the record. -/
theorem failureLeavesNoRecord : Obligations.FailureLeavesNoRecord := by
  intro p hinv herr
  obtain ⟨hstatus, ⟨hzero, -⟩, -⟩ := psegInv_complete hinv
  have hvalid := hstatus.not_valid_of_err herr
  exact ⟨hvalid, csrValue_of_zero_record (hzero hvalid)⟩

end Sys2Proof.Machine
end

section
/-! SUPPORT. A turn as a function of the one PSEG it addresses (20_memory.md R90; 60_exceptions.md R264, R275), and the run's
end and stop (R270, R276). -/

namespace Sys2Proof.Machine

open Sys2Proof.Stated

/-! ### What a turn does -/

/-- What a turn does to a PSEG it reaches and what it returns to the host, when everything else is left out. -/
def turnEffect (u : Turn) (p : Pseg) : Pseg × List Word :=
  match u with
  | .access _ q w =>
    match decode p.params q w with
    | .ok i => accessEffect i p
    | .error (.busError addr) => (raiseFault (.busError addr) p, [])
  | .engine _ => (complete p, [])
  | .reset => (resetPseg p, [])

/-- Putting another PSEG at the addressed one's place. -/
theorem instances_set_cur (t : State) (q : Pseg) (ws : List Word) :
    instances { t with cur := q, observed := ws } = (instances t).set t.before.length q := by
  simp [instances]

/-- A turn of PSEG `k` puts its effect in the place of PSEG `k`. -/
theorem runTurn_of_instance {u : Turn} {k : Nat} {s : State} {p : Pseg} (hk : addressee u = some k)
    (hnone : anyFault s = none) (hp : (instances s)[k]? = some p) :
    ∃ t, runTurn u s = .next t ∧ instances t = (instances s).set k (turnEffect u p).1
      ∧ t.observed = s.observed ++ (turnEffect u p).2 := by
  cases hsel : select k s with
  | none => simp [List.getElem?_eq_none (select_none_iff.mp hsel)] at hp
  | some v =>
    obtain ⟨hinst, hcur, hlen, -, hobs⟩ := select_spec hsel
    obtain rfl : v.cur = p := Option.some.inj (hcur.symm.trans hp)
    refine ⟨{ v with cur := (turnEffect u v.cur).1, observed := v.observed ++ (turnEffect u v.cur).2 }, ?_,
      by rw [instances_set_cur, hinst, hlen], by rw [hobs]⟩
    cases u with
    | access j q w =>
      cases hk
      simp only [runTurn, hnone, runAccess, hsel, turnEffect]
      rcases decode v.cur.params q w with ⟨addr⟩ | i
      · simp [onCur]
      · exact exec_eq_accessEffect i v
    | engine j =>
      cases hk
      simp [runTurn, hnone, runEngine, hsel, turnEffect, onCur]
    | reset => cases hk

/-- A turn that goes on found no fault and its PSEG. -/
theorem exists_instance_of_runTurn {u : Turn} {k : Nat} {s t : State} (hk : addressee u = some k)
    (h : runTurn u s = .next t) : anyFault s = none ∧ ∃ p, (instances s)[k]? = some p := by
  have hnone : anyFault s = none := by
    cases hf : anyFault s with
    | none => rfl
    | some f => cases u <;> cases hk <;> simp [runTurn, hf] at h
  refine ⟨hnone, Option.ne_none_iff_exists'.mp fun hp => ?_⟩
  have hsel : select k s = none := select_none_iff.mpr (List.getElem?_eq_none_iff.mp hp)
  cases u <;> cases hk <;> simp [runTurn, hnone, runAccess, runEngine, hsel] at h

/-- What a turn that goes on did. -/
theorem runTurn_next {u : Turn} {k : Nat} {s t : State} (hk : addressee u = some k) (h : runTurn u s = .next t) :
    ∃ p, (instances s)[k]? = some p ∧ instances t = (instances s).set k (turnEffect u p).1
      ∧ t.observed = s.observed ++ (turnEffect u p).2 := by
  obtain ⟨hnone, p, hp⟩ := exists_instance_of_runTurn hk h
  obtain ⟨t', ht', heffect⟩ := runTurn_of_instance hk hnone hp
  cases h.symm.trans ht'
  exact ⟨p, hp, heffect⟩

theorem step_of_turn {u : Turn} {ts : List Turn} {s : State} (h : s.turns = u :: ts) :
    step s = runTurn u { s with turns := ts } := by
  simp [step, runNext, h]

/-- With an empty schedule a step is the engine turn of some PSEG, or changes nothing (log entry 3). -/
theorem runIdle_cases {s : State} (hnone : anyFault s = none) :
    (∃ k, runIdle s = runTurn (.engine k) s) ∨ runIdle s = .next s := by
  cases hidx : (instances s).findIdx? (fun p => p.status.busy) with
  | none => exact .inr (by simp [runIdle, hidx])
  | some k => exact .inl ⟨k, by simp [runIdle, hidx, runTurn, hnone]⟩

/-- Settles O48: the effect of a turn goes to the place of its PSEG and depends on that PSEG alone. -/
theorem instancesShareNothing : Obligations.InstancesShareNothing := by
  constructor
  · intro s t u ts k hturn hk hstep
    obtain ⟨p, -, hinst, -⟩ := runTurn_next (s := { s with turns := ts }) hk (step_of_turn hturn ▸ hstep)
    rw [hinst]
    exact ⟨List.length_set, fun j hj => List.getElem?_set_ne hj.symm⟩
  · intro s s' t u ts ts' k hturn hturn' hk hsame hnone hstep
    obtain ⟨p, hp, hinst, hobs⟩ := runTurn_next (s := { s with turns := ts }) hk (step_of_turn hturn ▸ hstep)
    have hp' : (instances { s' with turns := ts' })[k]? = some p := hsame.symm.trans hp
    obtain ⟨t', hstep', hinst', hobs'⟩ := runTurn_of_instance (s := { s' with turns := ts' }) hk hnone hp'
    refine ⟨t', (turnEffect u p).2, (step_of_turn hturn').trans hstep', ?_, hobs, hobs'⟩
    rw [hinst, hinst', List.getElem?_set_self', List.getElem?_set_self', hp, hp']

/-! ### The end of a run -/

/-- Settles O50: no reset is scheduled, no fault is recorded and no completion is owed. -/
theorem finalStateIsStable : Obligations.FinalStateIsStable := by
  rintro s ⟨hturns, hidle, hclear⟩
  have hnone : anyFault s = none := anyFault_none_iff.mpr hclear
  have hstep : step s = runIdle s := by simpa [hturns, hnone] using step_cases s
  have hidx : (instances s).findIdx? (fun p => p.status.busy) = none := List.findIdx?_eq_none_iff.mpr hidle
  rw [hstep, runIdle, hidx]

/-! ### A recorded fault -/

/-- Reset clears every mark (10_state.md R54; log entry 6). -/
theorem anyFault_resetAll (s : State) : anyFault (resetAll s) = none := by
  have hall : instances (resetAll s) = (instances s).map resetPseg := by simp [instances]
  simp [anyFault_none_iff, hall]

/-- Settles O43: of the turns a step can take only a reset goes on. -/
theorem faultStopsTheRun : Obligations.FaultStopsTheRun := by
  refine ⟨fun p h => complete_of_disabled (.inr h), fun s f hf => ⟨step_of_fault hf, fun t hstep => ?_⟩⟩
  rcases step_cases s with ⟨ts, hturn, hs⟩ | ⟨_, _, _, _, -, hnone, -⟩ | ⟨_, _, -, hnone, -⟩ | ⟨-, hnone, -⟩ | ⟨g, -, -, hs⟩
  · cases hs.symm.trans hstep
    exact ⟨by simp [hturn], anyFault_resetAll _⟩
  · cases hnone.symm.trans hf
  · cases hnone.symm.trans hf
  · cases hnone.symm.trans hf
  · cases hs.symm.trans hstep

end Sys2Proof.Machine
end

section
/-! SUPPORT. Where a FAULT mark comes from: an access by its request, the engine by its body (60_exceptions.md R270). -/

namespace Sys2Proof.Machine

open Sys2Proof.Stated

/-! ### Accesses -/

theorem writeCmd_fault (w : Word) (p : Pseg) : (writeCmd w p).fault = p.fault := by
  rcases writeCmd_cases w p with ⟨-, h⟩ | ⟨-, -, h⟩ | ⟨-, -, h⟩ | ⟨-, -, h⟩ | ⟨-, -, h⟩ <;> simp [h]

theorem writeCsr_fault (r : Csr) (w : Word) (p : Pseg) : (writeCsr r w p).fault = p.fault := by
  cases r
  case cmd => exact writeCmd_fault w p
  all_goals rfl

/-- The instruction of a CMD write is a CMD write, whatever its word names (log entry 5). -/
theorem accessEffect_cmdInstr (c : Params) (w : Word) (p : Pseg) :
    ∃ w', accessEffect (cmdInstr c w) p = (writeCmd w' p, []) := by
  unfold cmdInstr
  split <;> exact ⟨_, rfl⟩

/-- A register access sets no mark. -/
theorem csrAccess_fault {k : Nat} {q : BitVec 20} {w : Word} {p : Pseg} (h : IsCsrRequest q) :
    (turnEffect (.access k q w) p).1.fault = p.fault := by
  obtain ⟨we, r, rfl⟩ := exists_eq_csrRequest h
  obtain rfl | rfl : we = 0 ∨ we = 1 := BitVec.eq_zero_or_eq_one we
  · simp only [turnEffect, decode_csrRead, accessEffect]
  · simp only [turnEffect, decode_csrWrite]
    split
    · obtain ⟨w', hw'⟩ := accessEffect_cmdInstr p.params w p
      rw [hw', writeCmd_fault]
    · exact writeCsr_fault r w p

/-- An IBUF access marks an unwritten cell it reads and a busy PSEG it writes to, and nothing else (44_control_and_bus.md R240,
R241). -/
theorem ibufAccess_mark {k : Nat} {q : BitVec 20} {w : Word} {p : Pseg} {f : Fault} (h : IsIbufRequest p.params q)
    (hclear : p.fault = none) (hmark : (turnEffect (.access k q w) p).1.fault = some f) :
    turnEffect (.access k q w) p = (marked f p, [])
      ∧ ((q.extractLsb' 19 1 = 0 ∧ f = .uninitialisedRead (q.extractLsb' 0 16).toNat
          ∧ Memory.read p.ibuf (q.extractLsb' 0 16).toNat = none)
        ∨ (q.extractLsb' 19 1 = 1 ∧ f = .bufferWriteWhileBusy (q.extractLsb' 0 16).toNat ∧ p.status.busy = true)) := by
  obtain ⟨we, off, hoff, rfl⟩ := exists_eq_ibufRequest h
  have hwe : (ibufRequest we off).extractLsb' 19 1 = we := we_requestWord _ _ _
  have haddr : (ibufRequest we off).extractLsb' 0 16 = off := by simp [ibufRequest]
  rw [hwe, haddr]
  obtain rfl | rfl : we = 0 ∨ we = 1 := BitVec.eq_zero_or_eq_one we
  · simp only [turnEffect, decode_ibufRead w hoff, accessEffect, if_neg (not_le.mpr hoff)] at hmark ⊢
    cases hread : Memory.read p.ibuf off.toNat with
    | none =>
      simp only [hread, raiseFault_fault, Option.some.injEq] at hmark
      subst hmark
      exact ⟨rfl, .inl ⟨trivial, rfl, rfl⟩⟩
    | some b => simp [hread, hclear] at hmark
  · simp only [turnEffect, decode_ibufWrite w hoff, accessEffect, if_neg (not_le.mpr hoff)] at hmark ⊢
    cases hbusy : p.status.busy with
    | true =>
      simp only [hbusy, if_true, raiseFault_fault, Option.some.injEq] at hmark
      subst hmark
      exact ⟨rfl, .inr ⟨trivial, rfl, rfl⟩⟩
    | false => simp [hbusy, hclear] at hmark

/-- An access that is not admitted marks its address (44_control_and_bus.md R242). -/
theorem turnEffect_of_busError {k : Nat} {q : BitVec 20} {w : Word} {p : Pseg} (hcsr : ¬ IsCsrRequest q)
    (hibuf : ¬ IsIbufRequest p.params q) :
    turnEffect (.access k q w) p = (marked (.busError (q.extractLsb' 0 17)) p, []) := by
  simp only [turnEffect, decode_busError w hcsr hibuf, raiseFault_eq_marked]

/-! ### The engine -/

/-- A completion marks an unwritten cell of its input, and nothing else (60_exceptions.md R264). -/
theorem complete_mark {p : Pseg} {f : Fault} (hclear : p.fault = none) (hmark : (complete p).fault = some f) :
    complete p = marked f p ∧ p.status.busy = true ∧ engineBody p = some (.error (.raise f))
      ∧ ∃ off, f = .uninitialisedRead off ∧ off < p.latLen.toNat ∧ off < p.params.bufBytes
        ∧ Memory.read p.ibuf off = none := by
  rcases complete_cases p with ⟨hc, -⟩ | ⟨hbusy, -, ⟨r, -, hc⟩ | ⟨c, -, hc⟩ | ⟨g, hbody, hc⟩⟩
  · simp [hc, hclear] at hmark
  · simp [hc, hclear] at hmark
  · simp [hc, hclear] at hmark
  · obtain rfl : g = f := by simpa [hc] using hmark
    obtain ⟨off, rfl⟩ := engineBody_raise hbody
    exact ⟨hc, hbusy, hbody, off, rfl, engineReadsInsideTheInput p off hbody⟩

/-! ### The machine -/

/-- A mark that a turn leaves in a machine without one is in the PSEG the turn addresses. -/
theorem runTurn_mark {u : Turn} {k : Nat} {s t : State} {f : Fault} (hk : addressee u = some k)
    (h : runTurn u s = .next t) (hf : anyFault t = some f) :
    ∃ p, (instances s)[k]? = some p ∧ p.fault = none ∧ (turnEffect u p).1.fault = some f
      ∧ (instances t)[k]? = some (turnEffect u p).1 ∧ t.observed = s.observed ++ (turnEffect u p).2 := by
  obtain ⟨hnone, -⟩ := exists_instance_of_runTurn hk h
  obtain ⟨p, hp, hinst, hobs⟩ := runTurn_next hk h
  have hclear := anyFault_none_iff.mp hnone
  obtain ⟨q, hq, hmark⟩ := List.exists_of_findSome?_eq_some hf
  refine ⟨p, hp, hclear p (List.mem_of_getElem? hp), ?_, ?_, hobs⟩
  · rcases List.mem_or_eq_of_mem_set (hinst ▸ hq) with hold | rfl
    · simp [hclear q hold] at hmark
    · exact hmark
  · rw [hinst, List.getElem?_set_self', hp]
    rfl

/-- A mark that the engine's turn leaves is that of an unwritten cell of the input (log entry 8). -/
theorem engineTurn_mark {k : Nat} {s t : State} {f : Fault} (h : runTurn (.engine k) s = .next t)
    (hf : anyFault t = some f) :
    ∃ p off, f = .uninitialisedRead off ∧ (instances s)[k]? = some p ∧ (instances t)[k]? = some (marked f p)
      ∧ t.observed = s.observed ∧ p.status.busy = true ∧ engineBody p = some (.error (.raise f))
      ∧ off < p.latLen.toNat ∧ off < p.params.bufBytes ∧ Memory.read p.ibuf off = none := by
  obtain ⟨p, hp, hclear, hmark, ht, hobs⟩ := runTurn_mark rfl h hf
  obtain ⟨hc, hbusy, hbody, off, hoff, hinside⟩ := complete_mark hclear hmark
  exact ⟨p, off, hoff, hp, hc ▸ ht, by simpa [turnEffect] using hobs, hbusy, hbody, hinside⟩

/-- Settles O44: by the turn that the step takes, an access by what its request asks for. -/
theorem faultsHaveTheirCauses : Obligations.FaultsHaveTheirCauses := by
  intro s t f hnone hstep hf
  rcases step_cases s with ⟨ts, -, hs⟩ | ⟨k, q, w, ts, hturn, -, -⟩ | ⟨k, ts, hturn, -, -⟩ | ⟨hturn, -, hs⟩ | ⟨g, -, hg, -⟩
  · cases hs.symm.trans hstep
    cases (anyFault_resetAll _).symm.trans hf
  · obtain ⟨p, hp, hclear, hmark, ht, hobs⟩ :=
      runTurn_mark (s := { s with turns := ts }) rfl (step_of_turn hturn ▸ hstep) hf
    by_cases hcsr : IsCsrRequest q
    · cases hclear.symm.trans ((csrAccess_fault hcsr).symm.trans hmark)
    by_cases hibuf : IsIbufRequest p.params q
    · obtain ⟨heffect, hcause⟩ := ibufAccess_mark hibuf hclear hmark
      rw [heffect] at ht hobs
      refine ⟨k, p, hp, ht, hobs.trans (List.append_nil _), ?_⟩
      have ⟨_, _, hin⟩ := hibuf
      rcases hcause with ⟨hwe, rfl, hread⟩ | ⟨hwe, rfl, hbusy⟩
      · exact ⟨hin, hread, .inl ⟨q, w, ts, hturn, hibuf, hwe, rfl⟩⟩
      · exact ⟨hbusy, q, w, ts, hturn, hibuf, hwe, rfl⟩
    · have heffect := turnEffect_of_busError (k := k) (w := w) hcsr hibuf
      rw [heffect] at hmark ht hobs
      cases hmark
      exact ⟨k, p, hp, ht, hobs.trans (List.append_nil _), q, w, ts, hturn, rfl, hcsr, hibuf⟩
  · obtain ⟨p, off, rfl, hp, ht, hobs, hbusy, hbody, hlen, hin, hread⟩ :=
      engineTurn_mark (s := { s with turns := ts }) (step_of_turn hturn ▸ hstep) hf
    exact ⟨k, p, hp, ht, hobs, hin, hread, .inr ⟨.inl ⟨ts, hturn⟩, hbusy, hbody, hlen⟩⟩
  · rcases runIdle_cases hnone with ⟨k, hidle⟩ | hidle
    · obtain ⟨p, off, rfl, hp, ht, hobs, hbusy, hbody, hlen, hin, hread⟩ :=
        engineTurn_mark ((hs.trans hidle).symm.trans hstep) hf
      exact ⟨k, p, hp, ht, hobs, hin, hread, .inr ⟨.inr hturn, hbusy, hbody, hlen⟩⟩
    · cases (hs.trans hidle).symm.trans hstep
      cases hnone.symm.trans hf
  · cases hnone.symm.trans hg

end Sys2Proof.Machine
end

section
/-! SUPPORT. What every PSEG holds after a reset turn, and the completions still owed when the host has issued its last access
(70_reset_and_hazards.md R290, R291, R305; 60_exceptions.md R276). -/

namespace Sys2Proof.Machine

open Sys2Proof.Stated

/-! ### Reset -/

/-- A reset reaches every PSEG at once (60_exceptions.md R274). -/
theorem instances_resetAll (s : State) : instances (resetAll s) = (instances s).map resetPseg := by
  simp [instances]

/-- Settles O23: every PSEG of the state after a reset turn is one right after reset, whose registers read 0. -/
theorem resetPutsEveryInstanceToItsResetValues : Obligations.ResetPutsEveryInstanceToItsResetValues := by
  intro s ts hturn
  refine ⟨resetAll { s with turns := ts }, step_of_turn hturn, rfl, rfl, paramsList_resetAll _, fun p hp => ?_⟩
  obtain ⟨q, -, rfl⟩ := List.mem_map.mp (instances_resetAll _ ▸ hp)
  have hzero (r : Csr) (hcaps : r ≠ .caps) (hbufsize : r ≠ .bufsize) : (csrValue (resetPseg q) r).toNat = 0 :=
    congrArg BitVec.toNat (csrValue_reset q.params hcaps hbufsize)
  have hrecord : ∀ r ∈ recordCsrs, (csrValue (resetPseg q) r).toNat = 0 := fun r hr =>
    congrArg BitVec.toNat (csrValue_of_zero_record (resetPseg_record q) r hr)
  exact ⟨hzero .status nofun nofun, hzero .ctrl nofun nofun, hzero .len nofun nofun, hrecord, fun _ => rfl,
    rfl, rfl, rfl, rfl, rfl, rfl, complete_of_disabled (.inl rfl)⟩

/-! ### Owed completions -/

/-- The invariant's latches name a body, so an enabled completion ends the operation or stops at an unwritten cell
(60_exceptions.md R264, R270). -/
theorem complete_of_owed {p : Pseg} (hlatch : LatchInv p) (hbusy : p.status.busy = true) (hclear : p.fault = none) :
    (complete p).status.busy = false ∨ ∃ a, (complete p).fault = some (.uninitialisedRead a) := by
  obtain ⟨-, -, hop⟩ := hlatch hbusy
  obtain ⟨v, hbody⟩ := exists_engineBody (hop.imp_right And.left)
  rw [complete_of_engineBody hbusy hclear hbody]
  rcases v with (c | f) | r
  · exact .inl rfl
  · obtain ⟨a, rfl⟩ := engineBody_raise hbody
    exact .inr ⟨a, rfl⟩
  · exact .inl rfl

/-- A change of the addressed PSEG that ends its operation leaves one busy PSEG fewer. -/
theorem busyCount_onCur_of_ended {f : Pseg → Pseg} {s : State} (hbusy : s.cur.status.busy = true)
    (hended : (f s.cur).status.busy = false) : busyCount (onCur f s) + 1 = busyCount s := by
  simp [busyCount, instances, hbusy, hended, Nat.add_assoc]

/-- Where some PSEG is busy, what happens on an empty schedule is the completion of a busy PSEG (log entry 3). -/
theorem runIdle_of_owed {s : State} (h : 0 < busyCount s) :
    ∃ (k : Nat) (u : State), select k s = some u ∧ u.cur.status.busy = true ∧ runIdle s = .next (onCur complete u) := by
  obtain ⟨p, hp, hbusy⟩ := List.countP_pos_iff.mp h
  cases hidx : (instances s).findIdx? (fun p => p.status.busy) with
  | none => simp [List.findIdx?_eq_none_iff.mp hidx p hp] at hbusy
  | some k =>
    obtain ⟨hk, hkbusy, -⟩ := List.findIdx?_eq_some_iff_getElem.mp hidx
    obtain ⟨u, hu⟩ := Option.ne_none_iff_exists'.mp fun hnone => absurd (select_none_iff.mp hnone) (not_le.mpr hk)
    obtain ⟨-, hcur, -⟩ := select_spec hu
    have hsame : (instances s)[k] = u.cur := Option.some.inj ((List.getElem?_eq_getElem hk).symm.trans hcur)
    exact ⟨k, u, hu, hsame ▸ hkbusy, by simp [runIdle, hidx, runEngine, hu]⟩

/-- Settles O49: the step is the completion of a busy PSEG, which ends its operation or leaves the run's first mark. -/
theorem owedCompletionsHappen : Obligations.OwedCompletionsHappen := by
  intro s hinv hturns hnone hpos
  obtain ⟨k, u, hu, hbusy, hidle⟩ := runIdle_of_owed hpos
  obtain ⟨hinst, -, -, hsched, -⟩ := select_spec hu
  have hclear : anyFault u = none := by rw [anyFault, hinst, ← anyFault, hnone]
  have hcur : u.cur ∈ instances u := by simp [instances]
  obtain ⟨-, -, hlatch, -⟩ := inv_select hu hinv u.cur hcur
  have hstep : step s = runIdle s := by simp [step, runNext, hturns, hnone]
  refine ⟨onCur complete u, hstep.trans hidle, hsched.trans hturns, ?_⟩
  rcases complete_of_owed hlatch hbusy (anyFault_none_iff.mp hclear u.cur hcur) with hended | ⟨a, hmark⟩
  · refine .inl ?_
    calc busyCount (onCur complete u) + 1 = busyCount u := busyCount_onCur_of_ended hbusy hended
      _ = busyCount s := by rw [busyCount, hinst, ← busyCount]
  · exact .inr ⟨a, anyFault_of_marked hclear rfl hmark⟩

end Sys2Proof.Machine
end

section
/-! SUPPORT. The IBUF instructions at an offset at or above BUF_BYTES (44_control_and_bus.md R242; log entry 7). -/

namespace Sys2Proof.Machine

open Sys2Proof.Stated

/-- The buffer's region starts at address 0x10000 of the aperture (20_memory.md R80). -/
theorem ibufAddr_eq_ofNat (off : BitVec 16) : 1#1 ++ off = BitVec.ofNat 17 (65536 + off.toNat) := by
  have hsum : (1#1 ++ off : BitVec 17).toNat = 65536 + off.toNat := ibufAddr_toNat off
  exact BitVec.eq_of_toNat_eq (by rw [hsum, BitVec.toNat_ofNat, Nat.mod_eq_of_lt (by omega)])

theorem accessEffect_ibufRd8_of_beyond {off : BitVec 16} {p : Pseg} (hoff : p.params.bufBytes ≤ off.toNat) :
    accessEffect (.ibufRd8 off) p = (marked (.busError (BitVec.ofNat 17 (65536 + off.toNat))) p, []) := by
  rw [accessEffect, if_pos hoff, ibufAddr_eq_ofNat, raiseFault_eq_marked]

theorem accessEffect_ibufWr8_of_beyond {off : BitVec 16} {p : Pseg} (b : Byte) (hoff : p.params.bufBytes ≤ off.toNat) :
    accessEffect (.ibufWr8 off b) p = (marked (.busError (BitVec.ofNat 17 (65536 + off.toNat))) p, []) := by
  rw [accessEffect, if_pos hoff, ibufAddr_eq_ofNat, raiseFault_eq_marked]

/-- Settles O15: the offset's check comes before the cell's and BUSY's, and the marked address is the offset in the buffer's
region. -/
theorem bufferOffsetBeyondCapacity : Obligations.BufferOffsetBeyondCapacity := by
  intro s off b hoff
  constructor
  · rw [exec_eq_accessEffect, accessEffect_ibufRd8_of_beyond hoff, List.append_nil]
  · rw [exec_eq_accessEffect, accessEffect_ibufWr8_of_beyond b hoff, List.append_nil]

end Sys2Proof.Machine
end
